-- ==== Sys2Proof/Word.lean ====
section
/-! DEFINITION. The bit widths of the spec (00_scope.md R13): bytes, host words, samples, 4-bit fields. -/

namespace Sys2Proof

/-- A 4-bit field: a device register address, a channel, the device ID (R13, R131). -/
abbrev Nibble := BitVec 4

/-- A byte on either bus, a device register's value (R13). -/
abbrev Byte := BitVec 8

/-- A 24-bit unsigned value: a sample or a delay count (R13). -/
abbrev Sample := BitVec 24

/-- A host register word or command word (R13, R133). -/
abbrev Word := BitVec 32

end Sys2Proof
end

