-- ==== Sys2Proof/Machine/Cmd.lean ====
section
/-! DEFINITION. The decoded command type (30_encoding.md R136), the error codes (60_exceptions.md R340)
and the micro-operations (40_bus_transaction.md R173), as data. -/

namespace Sys2Proof.Machine

/-- The decoded command, one constructor per row of the host command table (30_encoding.md R136). -/
inductive Cmd where
  | nop
  | rreg (a : Nibble)
  | wreg (a : Nibble) (v : Byte)
  | opcode (b : Byte)
  | rdata
  | identify
  | configure
  | acquire (ch : Nibble)
  | forward (s : Sample)
  | resetPulse
  | wait (n : Sample)
  deriving DecidableEq, Repr

/-- The error codes of `STATUS.ERR` (60_exceptions.md R340); codes 10 to 15 are never produced. -/
inductive ErrCode where
  | errNone
  | errIllegalOp
  | errBadOperand
  | errBusy
  | errNotIdentified
  | errHalted
  | errAlreadyIdentified
  | errIdMismatch
  | errUnresponsive
  | errXfer
  deriving DecidableEq, Repr

/-- Where an exchange puts the received byte (40_bus_transaction.md R173). -/
inductive Dst where
  | discard
  | rx (i : Fin 3)
  deriving DecidableEq, Repr

/-- The value `ARM2` splits (44_forwarding.md R294). -/
inductive Arm2Src where
  | imm (s : Sample)
  | fromSample
  deriving DecidableEq, Repr

/-- The event expression of `TELE`, evaluated at the step (40_bus_transaction.md R173, R184). -/
inductive TeleExpr where
  | banner (ok : Bool)
  | sampleOut
  deriving DecidableEq, Repr

/-- The micro-operations (40_bus_transaction.md R173). -/
inductive MicroOp where
  | csa
  | csd
  | xchg (b : Byte) (d : Dst)
  | gate
  | delay (n : Nat)
  | clrrx
  | tele (e : TeleExpr)
  | finish
  | setrx
  | decode
  | idchk
  | teleBanner
  | idset
  | rsta
  | rstd
  | irqwait
  | sela
  | arm2 (src : Arm2Src)
  | poll2
  | seld
  deriving DecidableEq, Repr

end Sys2Proof.Machine
end

