-- ==== Sys2Proof/Machine/Env.lean ====
section
/-! DEFINITION. The block's surroundings as plain data: line levels, the draws of a Seq step, and the
inputs of a step, one constructor per agent that moves (00_scope.md R11, R17). -/

namespace Sys2Proof.Machine

/-- Logical level of an output line (10_state.md R42, R43, R45, R46). -/
inductive Level where
  | asserted
  | deasserted
  deriving DecidableEq, Repr, Inhabited

/-- Electrical level of `DRDY`: low is ready, high is busy (10_state.md R44). -/
inductive Drdy where
  | low
  | high
  deriving DecidableEq, Repr, Inhabited

/-- What the environment drives during one Seq step. Each field is a draw (R17); a micro-operation
reads only the fields its rule names. -/
structure Draw where
  /-- `Xport` grants the byte exchange (40_bus_transaction.md R176, R190). -/
  grant : Bool
  /-- The byte `Dev` drives on `MISO1` (R176). -/
  miso : Byte
  /-- `Xport`'s transport-error flag (R176, R177). -/
  xerr : Bool
  /-- The `DRDY` level sampled at `GATE` (R178). -/
  drdy : Drdy
  /-- The telemetry sink accepts (R184). -/
  accept : Bool
  /-- The schedule takes the timeout step where there is one (R179; 44_forwarding.md R296). -/
  expire : Bool
  deriving DecidableEq, Repr, Inhabited

/-- Which agent moves next, with what it brings (R11). Host addresses are byte offsets from
`HOST_BASE`; an address below it has a negative offset (20_memory.md R101). -/
inductive Input where
  /-- `Host` reads `n` bytes; `drdy` is the level drawn for `STATUS.RDY` (20_memory.md R102). -/
  | hostRead (off : Int) (n : Nat) (drdy : Drdy)
  /-- `Host` writes `n` bytes of value `v` (R104). -/
  | hostWrite (off : Int) (n : Nat) (v : Word)
  /-- `Seq` has the turn, with its draws (40_bus_transaction.md R170). -/
  | seq (d : Draw)
  /-- `Irq` has the turn (60_exceptions.md R352). -/
  | irq
  /-- `Remote` clocks one byte; `stray` is the byte it gets if none is armed (44_forwarding.md R299). -/
  | remote (stray : Byte)
  /-- `RESET_IN` (70_reset_and_hazards.md R380). -/
  | blockReset
  deriving DecidableEq, Repr, Inhabited

end Sys2Proof.Machine
end

