-- ==== Sys2Proof/Machine/State.lean ====
section
/-! DEFINITION. The block's state (10_state.md R43 to R72), the event trace (R70, R71), the faults and
refusals, and the state after reset (R72). -/

namespace Sys2Proof.Machine

/-- The identity state `S.idst` (10_state.md R51); the encoding 3 is never produced. -/
inductive IdState where
  | unchecked
  | ok
  | halted
  deriving DecidableEq, Repr

/-- The agent that writes `SEL2` (10_state.md R71). -/
inductive Sel2Agent where
  | seq
  | irq
  deriving DecidableEq, Repr

/-- Telemetry events (10_state.md R62). -/
inductive TeleEvent where
  | banner (ok : Bool)
  | sampleOut (v : Sample)
  deriving DecidableEq, Repr

/-- Externally visible actions (10_state.md R71). -/
inductive Event where
  | accept (w : Word)
  | reject (w : Word) (e : ErrCode)
  | cs1 (l : Level)
  | x1 (mosi miso : Byte) (xerr : Bool)
  | delay (n : Nat)
  | rst (l : Level)
  | sel2 (l : Level) (agent : Sel2Agent)
  | arm2 (b0 b1 b2 : Byte)
  | x2 (b : Byte) (stray : Bool)
  | done2
  | disarm2
  | tele (e : TeleEvent)
  | abort (e : ErrCode)
  | finish
  deriving DecidableEq, Repr

/-- Three bytes at index 0, 1, 2: the type of `S.rx_buf` and `S.tx2_buf` (10_state.md R59, R60). -/
structure Bytes3 where
  b0 : Byte
  b1 : Byte
  b2 : Byte
  deriving DecidableEq, Repr

/-- The state: the fields of 10_state.md R72 under the spec's names, and last the three fields of the
model's own that carry the schedule, the draws and the host port (log entries 1, 2, 12). -/
structure State where
  /-- `S.cs1` (R43). -/
  cs1 : Level
  /-- `S.rst` (R45). -/
  rst : Level
  /-- `S.sel2` (R46). -/
  sel2 : Level
  /-- `S.busy` (R50). -/
  busy : Bool
  /-- `S.idst` (R51, R58). -/
  idst : IdState
  /-- `S.err` (R52). -/
  err : ErrCode
  /-- `S.id` (R53). -/
  idNibble : Nibble
  /-- `S.cirq_en` (R54). -/
  cirqEn : Bool
  /-- `S.rxdata` (R55). -/
  rxdata : Byte
  /-- `S.sample` (R56). -/
  sample : Sample
  /-- `S.rx_buf` (R59). -/
  rxBuf : Bytes3
  /-- `S.tx2_buf` (R60). -/
  tx2Buf : Bytes3
  /-- `S.x2_idx`, 0..3 (R60). -/
  x2Idx : Fin 4
  /-- `S.x2_busy` (R60). -/
  x2Busy : Bool
  /-- `S.irq_pending` (R61). -/
  irqPending : Bool
  /-- `S.fail_count` (R63). -/
  failCount : Nat
  /-- `S.cur` (R64). -/
  cur : Option Cmd
  /-- `S.upc` (R67). -/
  upc : Nat
  /-- `S.trace`, oldest first (R70). -/
  trace : List Event
  /-- The model's own: the inputs of the coming steps, next first (log entry 1). -/
  script : List Input
  /-- The model's own: steps taken, the index of the next free input (log entry 1). -/
  tick : Nat
  /-- The model's own: the word the host port gave at the latest admitted read (log entry 12). -/
  hostOut : Option Word
  deriving DecidableEq, Repr

/-- Reasons the machine stops. Both stand only in states no run from reset reaches. -/
inductive Fault where
  /-- Raised by a running command's Seq step when `S.upc` is past its expansion; no run reaches it
  (10_state.md R67). Safe: the model stops where the spec has no step. -/
  | microPcOutOfRange
  /-- Raised by `Remote`'s step when a transfer is armed and all three bytes are out; no run reaches it
  (44_forwarding.md R299, R300). Safe: the model stops where the spec has no byte to send. -/
  | armedIndexOutOfRange
  deriving DecidableEq, Repr

/-- Reasons the model gives a step no meaning. -/
inductive Refusal where
  /-- An instruction without a meaning yet, raised by its arm of `exec`. Safe. -/
  | notModelled (mnemonic : String)
  /-- A host access that is not one aligned 32-bit word of the window, raised by the Host's step; the
  spec refuses it (20_memory.md R103). Safe: the model stops. -/
  | hostAccess (off : Int) (n : Nat)
  deriving DecidableEq, Repr

/-- The state after block reset (10_state.md R72; 70_reset_and_hazards.md R380). The last three fields
are the model's own (log entry 2). -/
def State.reset : State where
  cs1 := .deasserted
  rst := .deasserted
  sel2 := .deasserted
  busy := false
  idst := .unchecked
  err := .errNone
  idNibble := 0
  cirqEn := true
  rxdata := 0x00
  sample := 0x000000
  rxBuf := ⟨0x00, 0x00, 0x00⟩
  tx2Buf := ⟨0x00, 0x00, 0x00⟩
  x2Idx := 0
  x2Busy := false
  irqPending := false
  failCount := 0
  cur := none
  upc := 0
  trace := []
  script := []
  tick := 0
  hostOut := none

end Sys2Proof.Machine
end

