-- ==== Sys2Proof/Machine/Flags.lean ====
section
/-! DEFINITION. The status word and the other words of the host window as a read gives them
(10_state.md R47 to R57; 20_memory.md R102), the error code numbers (60_exceptions.md R340), and the
identity-state gate (R344). -/

namespace Sys2Proof.Machine

/-- The code of an error (60_exceptions.md R340). -/
def errBits : ErrCode → Nibble
  | .errNone => 0
  | .errIllegalOp => 1
  | .errBadOperand => 2
  | .errBusy => 3
  | .errNotIdentified => 4
  | .errHalted => 5
  | .errAlreadyIdentified => 6
  | .errIdMismatch => 7
  | .errUnresponsive => 8
  | .errXfer => 9

/-- The `IDST` field (10_state.md R51). -/
def idstBits : IdState → BitVec 2
  | .unchecked => 0
  | .ok => 1
  | .halted => 2

/-- 1 exactly when the line is asserted (20_memory.md R102). -/
def levelBit : Level → BitVec 1
  | .asserted => 1
  | .deasserted => 0

/-- 1 exactly when `DRDY` is low (20_memory.md R102). -/
def readyBit : Drdy → BitVec 1
  | .low => 1
  | .high => 0

/-- A field of the `STATUS` word at its lowest bit (10_state.md R49). -/
def fieldAt {n : Nat} (lo : Nat) (x : BitVec n) : Word := x.zeroExtend 32 <<< lo

/-- The `STATUS` word at a read that draws the level `drdy` (20_memory.md R102; 10_state.md R49). Bits 31
to 17 are 0. -/
def statusWord (s : State) (drdy : Drdy) : Word :=
  fieldAt 0 (BitVec.ofBool s.busy) ||| fieldAt 1 (idstBits s.idst) ||| fieldAt 3 (levelBit s.sel2)
    ||| fieldAt 4 (levelBit s.cs1) ||| fieldAt 5 (BitVec.ofBool s.x2Busy)
    ||| fieldAt 6 (BitVec.ofBool s.irqPending) ||| fieldAt 7 (levelBit s.rst)
    ||| fieldAt 8 (errBits s.err) ||| fieldAt 12 s.idNibble ||| fieldAt 16 (readyBit drdy)

/-- The window's word at a byte offset (20_memory.md R102): `CMD` and the reserved offsets read 0. -/
def windowWord (s : State) (off : Int) (drdy : Drdy) : Word :=
  if off = 0x04 then statusWord s drdy
  else if off = 0x08 then (BitVec.ofBool s.cirqEn).zeroExtend 32
  else if off = 0x0C then s.rxdata.zeroExtend 32
  else if off = 0x10 then s.sample.zeroExtend 32
  else 0x00000000

/-- The identity-state gate (60_exceptions.md R344): the rejection code, or none where the table says
Ok. -/
def idGate : IdState → Cmd → Option ErrCode
  | _, .nop => none
  | .unchecked, .wait _ => none
  | .ok, .wait _ => none
  | .unchecked, .resetPulse => none
  | .ok, .resetPulse => none
  | .unchecked, .identify => none
  | .ok, .identify => some .errAlreadyIdentified
  | .ok, .rreg _ => none
  | .ok, .wreg _ _ => none
  | .ok, .opcode _ => none
  | .ok, .rdata => none
  | .ok, .configure => none
  | .ok, .acquire _ => none
  | .ok, .forward _ => none
  | .unchecked, .rreg _ => some .errNotIdentified
  | .unchecked, .wreg _ _ => some .errNotIdentified
  | .unchecked, .opcode _ => some .errNotIdentified
  | .unchecked, .rdata => some .errNotIdentified
  | .unchecked, .configure => some .errNotIdentified
  | .unchecked, .acquire _ => some .errNotIdentified
  | .unchecked, .forward _ => some .errNotIdentified
  | .halted, .wait _ => some .errHalted
  | .halted, .resetPulse => some .errHalted
  | .halted, .identify => some .errHalted
  | .halted, .rreg _ => some .errHalted
  | .halted, .wreg _ _ => some .errHalted
  | .halted, .opcode _ => some .errHalted
  | .halted, .rdata => some .errHalted
  | .halted, .configure => some .errHalted
  | .halted, .acquire _ => some .errHalted
  | .halted, .forward _ => some .errHalted

end Sys2Proof.Machine
end

