-- ==== Sys2Proof/Config.lean ====
section
/-! DEFINITION. The implementation parameters of 00_scope.md R12 and the free inputs of R17.
A parameter the spec leaves OPEN, or gives by decision with both settings described, is an opaque
constant: no proof can learn its value. A parameter whose value the source settles has that value. -/

namespace Sys2Proof.Config

open Sys2Proof.Machine

/-! ## Parameters the source settles (R12) -/

/-- `EXPECTED_ID` (R12; 42_identification.md R232). -/
def expectedId : Nibble := 3

/-- `T_RREG`: post-read-register settle (R12). -/
def tRreg : Nat := 100

/-- `T_PRETRIG`: pre-trigger delay (R12). -/
def tPretrig : Nat := 1

/-- `T_POSTTRIG`: post-trigger recovery (R12). -/
def tPosttrig : Nat := 10

/-- `T_CFG`: post-configure settle (R12). -/
def tCfg : Nat := 1

/-- `T_RST_ACTIVE`: first figure of the reset pulse (R12). -/
def tRstActive : Nat := 200

/-- `T_RST_RECOVER`: second figure of the reset pulse (R12). -/
def tRstRecover : Nat := 200

/-- `T_PERIOD`: used only by the boot program (R12; 70_reset_and_hazards.md R392). -/
def tPeriod : Nat := 1000

/-! ## OPEN parameters (R12): free values -/

/-- `STATUS_ADDR`, OPEN (D9). -/
opaque statusAddr : Nibble

/-- `MUX_ADDR`, OPEN (D9). -/
opaque muxAddr : Nibble

/-- `NUM_CHANNELS - 1`, so that the parameter lies in 1..16 (D10). -/
opaque lastChannel : Fin 16

/-- `NUM_CHANNELS`, OPEN, 1..16 (R12, D10). -/
def numChannels : Nat := lastChannel.val + 1

/-- `MUX_VALUE`, OPEN (43_conversion.md R271, D10). -/
opaque muxValue : Nibble → Byte

/-- `CFG_BASE` as a number in 0..12, since `CFG_BASE + 3 ≤ 15` (43_conversion.md R252). -/
opaque cfgBaseIndex : Fin 13

/-- `CFG_BASE`, OPEN (R252, D11). -/
def cfgBase : Nibble := BitVec.ofNat 4 cfgBaseIndex.val

/-- The bytes of `CFG_BLOCK` that R252 leaves open. -/
opaque cfgFree : Fin 4 → Byte

/-- A position offered for the data-rate byte 0xE0 of R252 (a). -/
opaque cfgRateSlot : Fin 4

/-- Position `i` of the block is the mux register (R252 (b)). -/
def cfgIsMux (i : Fin 4) : Bool := cfgBaseIndex.val + i.val == muxAddr.toNat

/-- The position of the data-rate byte: the offered one, or the next if the mux register has it. -/
def cfgRateIndex : Fin 4 := if cfgIsMux cfgRateSlot then cfgRateSlot + 1 else cfgRateSlot

/-- `CFG_BLOCK`, OPEN under the two constraints of 43_conversion.md R252: some byte is 0xE0, and the
mux register's byte, if the block holds it, is 0x01. Every block R252 admits is a value of this one. -/
def cfgBlock (i : Fin 4) : Byte :=
  if cfgIsMux i then 0x01 else if i = cfgRateIndex then 0xE0 else cfgFree i

/-- `RX_FILL`, OPEN (30_encoding.md R145, D8). -/
opaque rxFill : Byte

/-- `HOST_BASE / 0x20`, since `HOST_BASE` is a multiple of 0x20 (20_memory.md R101). -/
opaque hostBlock : Nat

/-- `HOST_BASE`, OPEN (R12, D2). -/
def hostBase : Nat := 0x20 * hostBlock

/-! ## Parameters with a default by decision; the spec describes both settings (90_conflicts.md C4) -/

/-- `READY_TIMEOUT`; the default is `none` (R12, D16; 40_bus_transaction.md R179). -/
opaque readyTimeout : Option Nat

/-- `XFER2_TIMEOUT`; the default is `none` (R12, D17; 44_forwarding.md R296). -/
opaque xfer2Timeout : Option Nat

/-- `CHECK_XFER_ERR`; the default is false (R12, D19; 40_bus_transaction.md R177). -/
opaque checkXferErr : Bool

/-- `MAX_CONSEC_FAIL - 1` where the parameter is set, so that it is at least 1. -/
opaque failLimitLess1 : Option Nat

/-- `MAX_CONSEC_FAIL`; the default is `none` (R12, D19; 60_exceptions.md R349). -/
def maxConsecFail : Option Nat := failLimitLess1.map (· + 1)

/-! ## Free inputs (R17) -/

/-- FREE VALUE: the agent that moves and its draws at the `t`-th step, once the state's own script is
used up. Nothing constrains it (R11, R17; log entry 1). -/
opaque freeInput : Nat → Input

end Sys2Proof.Config
end

