-- ==== Sys2Proof/Syntax.lean ====
section
/-! DEFINITION. Every row of spec/opcode_table.json, one constructor each. -/

namespace Sys2Proof

/-- The opcode table: the eleven host commands (30_encoding.md R134), the two names it gives to words of
`OPCODE` (R144), and the five wire opcodes the block emits (R132). -/
inductive Instr where
  /-- `NOP` (45_control.md R320). -/
  | nop
  /-- `RREG a` (41_register_access.md R200). -/
  | rreg (a : Nibble)
  /-- `WREG a, v` (41_register_access.md R205). -/
  | wreg (a : Nibble) (v : Byte)
  /-- `OPCODE b` (41_register_access.md R209). -/
  | opcode (b : Byte)
  /-- `RDATA` (43_conversion.md R255). -/
  | rdata
  /-- `IDENTIFY` (42_identification.md R230). -/
  | identify
  /-- `CONFIGURE` (43_conversion.md R250). -/
  | configure
  /-- `ACQUIRE ch` (43_conversion.md R270). -/
  | acquire (ch : Nibble)
  /-- `FORWARD s` (44_forwarding.md R290). -/
  | forward (s : Sample)
  /-- `RESET_PULSE` (45_control.md R326). -/
  | resetPulse
  /-- `WAIT n` (45_control.md R323). -/
  | wait (n : Sample)
  /-- `SYNC` = `OPCODE 0xFC` (30_encoding.md R144). -/
  | sync
  /-- `WAKEUP` = `OPCODE 0x00` (30_encoding.md R144). -/
  | wakeup
  /-- Wire opcode `0x10 | a`: read register at `a` (30_encoding.md R132). -/
  | wireRreg (a : Nibble)
  /-- Wire opcode `0x50 | a`: write register at `a` (R132). -/
  | wireWreg (a : Nibble)
  /-- Wire opcode 0xFC: synchronize (R132). -/
  | wireSync
  /-- Wire opcode 0x00: wake from standby (R132). -/
  | wireWakeup
  /-- Wire opcode 0x01: read conversion data (R132). -/
  | wireRdata
  deriving DecidableEq, Repr

end Sys2Proof
end

