-- ==== Sys2Proof/WellFormed.lean ====
section
/-! DEFINITION. Which instruction terms a word of the spec stands for. Every operand's width is in its
type (30_encoding.md R138), so one check is left: the channel range (R139). -/

namespace Sys2Proof

/-- A well-formed instruction: `ACQUIRE`'s channel is below `NUM_CHANNELS` (30_encoding.md R139). -/
def Instr.wellFormed : Instr → Bool
  | .acquire ch => decide (ch.toNat < Config.numChannels)
  | .nop | .rreg _ | .wreg _ _ | .opcode _ | .rdata | .identify | .configure | .forward _
  | .resetPulse | .wait _ | .sync | .wakeup
  | .wireRreg _ | .wireWreg _ | .wireSync | .wireWakeup | .wireRdata => true

end Sys2Proof
end

