-- ==== Sys2Proof/Decode.lean ====
section
/-! DEFINITION. Decoding of host command words (30_encoding.md R133 to R140) and of wire opcodes (R132),
and after it the encoder, written from the same tables. -/

namespace Sys2Proof

open Sys2Proof.Machine

/-! ## Field extraction (R133, R138) -/

/-- `OP = w[31:28]` (R133). -/
def opField (w : Word) : Nibble := w.extractLsb' 28 4

/-- `ADDR = w[27:24]` (R133). -/
def addrField (w : Word) : Nibble := w.extractLsb' 24 4

/-- `w[23:0]` (R133, R138). -/
def operandField (w : Word) : Sample := w.extractLsb' 0 24

/-- `w[7:0]` (R138). -/
def byteField (w : Word) : Byte := w.extractLsb' 0 8

/-- `w[3:0]` (R138). -/
def channelField (w : Word) : Nibble := w.extractLsb' 0 4

/-! ## The host command layer -/

/-- Match and mask of the row with this `OP` (30_encoding.md R134); none for the reserved values (R140). -/
def rowOf (op : Nibble) : Option (Word × Word) :=
  match op with
  | 0x0#4 => some (0x00000000, 0xFFFFFFFF)
  | 0x1#4 => some (0x10000000, 0xF0FFFFFF)
  | 0x2#4 => some (0x20000000, 0xF0FFFF00)
  | 0x3#4 => some (0x30000000, 0xFFFFFF00)
  | 0x4#4 => some (0x40000000, 0xFFFFFFFF)
  | 0x5#4 => some (0x50000000, 0xFFFFFFFF)
  | 0x6#4 => some (0x60000000, 0xFFFFFFFF)
  | 0x7#4 => some (0x70000000, 0xFFFFFFF0)
  | 0x8#4 => some (0x80000000, 0xFF000000)
  | 0x9#4 => some (0x90000000, 0xFFFFFFFF)
  | 0xA#4 => some (0xA0000000, 0xFF000000)
  | _ => none

/-- The last part of R137: the operands of a word whose reserved bits are zero. -/
def operandsOf (w : Word) : Except ErrCode Cmd :=
  match opField w with
  | 0x0#4 => .ok .nop
  | 0x1#4 => .ok (.rreg (addrField w))
  | 0x2#4 => .ok (.wreg (addrField w) (byteField w))
  | 0x3#4 => .ok (.opcode (byteField w))
  | 0x4#4 => .ok .rdata
  | 0x5#4 => .ok .identify
  | 0x6#4 => .ok .configure
  | 0x7#4 =>
    if (channelField w).toNat < Config.numChannels then .ok (.acquire (channelField w))
    else .error .errBadOperand
  | 0x8#4 => .ok (.forward (operandField w))
  | 0x9#4 => .ok .resetPulse
  | 0xA#4 => .ok (.wait (operandField w))
  | _ => .error .errIllegalOp

/-- `decode` of 30_encoding.md R137, total on words: illegal OP first, then reserved bits, then the
channel range. -/
def decodeCmd (w : Word) : Except ErrCode Cmd :=
  match rowOf (opField w) with
  | none => .error .errIllegalOp
  | some (m, k) => if w &&& k = m then operandsOf w else .error .errBadOperand

/-- A command as a term of the opcode table. -/
def instrOf : Cmd → Instr
  | .nop => .nop
  | .rreg a => .rreg a
  | .wreg a v => .wreg a v
  | .opcode b => .opcode b
  | .rdata => .rdata
  | .identify => .identify
  | .configure => .configure
  | .acquire ch => .acquire ch
  | .forward s => .forward s
  | .resetPulse => .resetPulse
  | .wait n => .wait n

/-- The name the table gives a term: `OPCODE 0xFC` is `SYNC` and `OPCODE 0x00` is `WAKEUP`
(30_encoding.md R144); every other term is its own. -/
def tableName : Instr → Instr
  | .opcode b => if b = 0xFC then .sync else if b = 0x00 then .wakeup else .opcode b
  | i => i

/-- The command an instruction of the host layer is (R144 for the two pseudo-instructions); a wire
opcode is none. -/
def commandOf : Instr → Option Cmd
  | .nop => some .nop
  | .rreg a => some (.rreg a)
  | .wreg a v => some (.wreg a v)
  | .opcode b => some (.opcode b)
  | .rdata => some .rdata
  | .identify => some .identify
  | .configure => some .configure
  | .acquire ch => some (.acquire ch)
  | .forward s => some (.forward s)
  | .resetPulse => some .resetPulse
  | .wait n => some (.wait n)
  | .sync => some (.opcode 0xFC)
  | .wakeup => some (.opcode 0x00)
  | .wireRreg _ | .wireWreg _ | .wireSync | .wireWakeup | .wireRdata => none

/-- A host command word as an instruction of the opcode table (R137, R144). -/
def decodeWord (w : Word) : Except ErrCode Instr :=
  match decodeCmd w with
  | .ok c => .ok (tableName (instrOf c))
  | .error e => .error e

/-! ## The wire layer -/

/-- `0x10 | addr` (30_encoding.md R131, R138). -/
def readOpcode (a : Nibble) : Byte := 0x10 ||| a.zeroExtend 8

/-- `0x50 | addr` (R131, R138). -/
def writeOpcode (a : Nibble) : Byte := 0x50 ||| a.zeroExtend 8

/-- The wire opcode a byte at a frame's opcode position is (R132); none for a byte outside the table
(R142). -/
def decodeWire (b : Byte) : Option Instr :=
  match b.extractLsb' 4 4 with
  | 0x1#4 => some (.wireRreg (b.extractLsb' 0 4))
  | 0x5#4 => some (.wireWreg (b.extractLsb' 0 4))
  | _ =>
    if b = 0xFC then some .wireSync
    else if b = 0x00 then some .wireWakeup
    else if b = 0x01 then some .wireRdata
    else none

/-- The decoder on the numbering of spec/opcode_table.json: 32 bits are a host command word, 8 bits a
wire opcode; no other length exists (R133, R132). -/
def decodeTableWord (nbits w : Nat) : Option Instr :=
  if nbits = 32 then
    if w < 4294967296 then (decodeWord (BitVec.ofNat 32 w)).toOption else none
  else if nbits = 8 then
    if w < 256 then decodeWire (BitVec.ofNat 8 w) else none
  else none

/-! ## The encoder -/

/-- A command word from its three fields (30_encoding.md R133). -/
def packFields (op addr : Nibble) (operand : Sample) : Word :=
  op.zeroExtend 32 <<< 28 ||| addr.zeroExtend 32 <<< 24 ||| operand.zeroExtend 32

/-- The word of a command (30_encoding.md R134). -/
def encodeCmd : Cmd → Word
  | .nop => packFields 0x0 0 0
  | .rreg a => packFields 0x1 a 0
  | .wreg a v => packFields 0x2 a (v.zeroExtend 24)
  | .opcode b => packFields 0x3 0 (b.zeroExtend 24)
  | .rdata => packFields 0x4 0 0
  | .identify => packFields 0x5 0 0
  | .configure => packFields 0x6 0 0
  | .acquire ch => packFields 0x7 0 (ch.zeroExtend 24)
  | .forward s => packFields 0x8 0 s
  | .resetPulse => packFields 0x9 0 0
  | .wait n => packFields 0xA 0 n

/-- The byte of a wire opcode (30_encoding.md R131, R132); a host command has none. -/
def encodeWire : Instr → Option Byte
  | .wireRreg a => some (readOpcode a)
  | .wireWreg a => some (writeOpcode a)
  | .wireSync => some 0xFC
  | .wireWakeup => some 0x00
  | .wireRdata => some 0x01
  | .nop | .rreg _ | .wreg _ _ | .opcode _ | .rdata | .identify | .configure | .acquire _
  | .forward _ | .resetPulse | .wait _ | .sync | .wakeup => none

/-- Length in bits and number of an instruction's encoding, as spec/opcode_table.json numbers it. -/
def encode (i : Instr) : Nat × Nat :=
  match commandOf i with
  | some c => (32, (encodeCmd c).toNat)
  | none =>
    match encodeWire i with
    | some b => (8, b.toNat)
    | none => (0, 0)

end Sys2Proof
end

