-- ==== Sys2Proof/Machine/Operands.lean ====
section
/-! DEFINITION. The byte orders of a sample (20_memory.md R106, R107), the three-byte buffers
(10_state.md R59, R60), and the frames a command is built of (30_encoding.md R145; 40_bus_transaction.md
R188). -/

namespace Sys2Proof.Machine

/-! ## Three-byte buffers -/

/-- The cleared buffer (40_bus_transaction.md R183). -/
def zeroBytes : Bytes3 := ⟨0x00, 0x00, 0x00⟩

/-- Write index `i` (10_state.md R59). -/
def setByte (b : Bytes3) (i : Fin 3) (v : Byte) : Bytes3 :=
  match i with
  | 0 => { b with b0 := v }
  | 1 => { b with b1 := v }
  | 2 => { b with b2 := v }

/-- The byte at an index in transmission order, none past the third (44_forwarding.md R299). -/
def byteAt (b : Bytes3) : Nat → Option Byte
  | 0 => some b.b0
  | 1 => some b.b1
  | 2 => some b.b2
  | _ + 3 => none

/-! ## Samples -/

/-- The decode of three received bytes, the first least significant (43_conversion.md R257;
20_memory.md R106). -/
def decodeSample (b : Bytes3) : Sample := b.b2 ++ b.b1 ++ b.b0

/-- `split`: a sample in transmission order, most-significant byte first (44_forwarding.md R291). -/
def splitSample (s : Sample) : Bytes3 :=
  ⟨s.extractLsb' 16 8, s.extractLsb' 8 8, s.extractLsb' 0 8⟩

/-- The device-ID nibble, `rxdata[7:4]` (42_identification.md R231). -/
def topNibble (b : Byte) : Nibble := b.extractLsb' 4 4

/-! ## Frames -/

/-- `frame(out, k)` (40_bus_transaction.md R188): all of `out`, then `k` receive positions, in one
assertion of `CS1`. -/
def frame (out : List Byte) (k : Nat) : List MicroOp :=
  [.csa] ++ out.map (fun b => .xchg b .discard)
    ++ (([0, 1, 2] : List (Fin 3)).take k).map (fun j => .xchg Config.rxFill (.rx j)) ++ [.csd]

/-- The RREG frame (30_encoding.md R145). -/
def rregFrame (a : Nibble) : List MicroOp := frame [readOpcode a, 0x00, 0xFF] 1

/-- The WREG frame (R145). -/
def wregFrame (a : Nibble) (v : Byte) : List MicroOp := frame [writeOpcode a, 0x00, v] 0

/-- The OPCODE frame (R145). -/
def opcodeFrame (b : Byte) : List MicroOp := frame [b] 0

/-- The RDATA frame (R145). -/
def rdataFrame : List MicroOp := frame [0x01] 3

/-- The CONFIGURE frame; the count byte is the number of registers less one (R145, R147). -/
def configureFrame : List MicroOp :=
  frame [writeOpcode Config.cfgBase, 0x03, Config.cfgBlock 0, Config.cfgBlock 1, Config.cfgBlock 2,
    Config.cfgBlock 3] 0

end Sys2Proof.Machine
end

