-- ==== Sys2Proof/Machine/Ops.lean ====
section
/-! DEFINITION. The shared operations: the step's input, events, acceptance and rejection
(60_exceptions.md R342, R343), the abort procedure (R348 to R350), every micro-operation
(40_bus_transaction.md R174 to R186 and the families' own), the completion handler, `Remote`'s step, block
reset, the host window, and the two parts every command's meaning is made of. -/

namespace Sys2Proof.Machine

/-! ## The input of a step, and events -/

/-- The input of the next step: the script's first, or a free one once the script is used up
(00_scope.md R11, R17; log entry 1). -/
def State.input (s : State) : Input :=
  match s.script with
  | i :: _ => i
  | [] => Config.freeInput s.tick

/-- The step's input is used (log entry 1). -/
def State.advance (s : State) : State := { s with script := s.script.tail, tick := s.tick + 1 }

/-- `emit(e)` (00_scope.md R16; 10_state.md R70). -/
def State.emit (s : State) (e : Event) : State := { s with trace := s.trace ++ [e] }

/-- `next` (00_scope.md R16; 10_state.md R67). -/
def State.nextOp (s : State) : State := { s with upc := s.upc + 1 }

/-- Apply `f` to a next state. -/
def onNext (f : State → State) :
    Host.Outcome State Fault Refusal → Host.Outcome State Fault Refusal
  | .next s => .next (f s)
  | .fault r => .fault r
  | .refused r => .refused r

/-! ## Acceptance and rejection -/

/-- `reject(w, e)` (60_exceptions.md R343). -/
def rejectWord (w : Word) (e : ErrCode) (s : State) : State := { s with err := e }.emit (.reject w e)

/-- The acceptance of a decoded command presented as the word `w` (60_exceptions.md R342 to R344). -/
def acceptCmd (w : Word) (c : Cmd) (s : State) : State :=
  if s.busy then rejectWord w .errBusy s
  else
    match idGate s.idst c with
    | some e => rejectWord w e s
    | none => { s with cur := some c, upc := 0, busy := true, err := .errNone }.emit (.accept w)

/-! ## Aborts -/

/-- First part of the abort procedure: `CS1` (60_exceptions.md R348). -/
def releaseCs1 (s : State) : State :=
  if s.cs1 = .asserted then { s with cs1 := .deasserted }.emit (.cs1 .deasserted) else s

/-- Second part: an armed secondary transfer (R348). -/
def disarmTransfer (s : State) : State :=
  if s.x2Busy then { s with x2Busy := false, x2Idx := 0 }.emit .disarm2 else s

/-- Third part: `SEL2` (R348). -/
def releaseSel2 (s : State) : State :=
  if s.sel2 = .asserted then { s with sel2 := .deasserted }.emit (.sel2 .deasserted .seq) else s

/-- The failure count has reached `MAX_CONSEC_FAIL` (60_exceptions.md R349). -/
def failLimitReached (n : Nat) : Bool :=
  match Config.maxConsecFail with
  | some m => decide (m ≤ n)
  | none => false

/-- The effect of `ERR_XFER` (60_exceptions.md R349). -/
def xferEffect (s : State) : State :=
  { s with
    failCount := s.failCount + 1
    idst := if failLimitReached (s.failCount + 1) then .halted else s.idst }

/-- The effect of `ERR_UNRESPONSIVE` from `GATE` (60_exceptions.md R350). -/
def gateTimeoutEffect (s : State) : State :=
  { s with idst := if s.idst = .ok then .unchecked else s.idst }

/-- The abort procedure `Abort(code)` with the code's own effect (60_exceptions.md R348). -/
def abortWith (code : ErrCode) (effect : State → State) (s : State) : State :=
  let t := effect
    ({ releaseSel2 (disarmTransfer (releaseCs1 s)) with err := code }.emit (.abort code))
  { t with busy := false, cur := none, upc := 0 }

/-! ## Micro-operations on the primary bus -/

/-- `CSA` (40_bus_transaction.md R174). -/
def opCsa (s : State) : State := ({ s with cs1 := .asserted }.emit (.cs1 .asserted)).nextOp

/-- `CSD` (R175). -/
def opCsd (s : State) : State := ({ s with cs1 := .deasserted }.emit (.cs1 .deasserted)).nextOp

/-- Where a received byte goes (R176). -/
def storeRx (dst : Dst) (v : Byte) (s : State) : State :=
  match dst with
  | .discard => s
  | .rx i => { s with rxBuf := setByte s.rxBuf i v }

/-- `XCHG(b, d)`: hold until granted; the exchange is recorded and its byte stored before an error
aborts (R176, R177; 60_exceptions.md R354). -/
def opXchg (b : Byte) (dst : Dst) (d : Draw) (s : State) : State :=
  if d.grant then
    let t := storeRx dst d.miso (s.emit (.x1 b d.miso d.xerr))
    if d.xerr && Config.checkXferErr then abortWith .errXfer xferEffect t else t.nextOp
  else s

/-- `GATE`: the timeout step where the schedule takes it and the parameter is set, else one sample of
`DRDY` (R178, R179). -/
def opGate (d : Draw) (s : State) : State :=
  if d.expire && Config.readyTimeout.isSome then abortWith .errUnresponsive gateTimeoutEffect s
  else if d.drdy = .low then s.nextOp
  else s

/-- `DELAY(n)` (R180). -/
def opDelay (n : Nat) (s : State) : State := (s.emit (.delay n)).nextOp

/-- `CLRRX` (R183). -/
def opClrrx (s : State) : State := { s with rxBuf := zeroBytes }.nextOp

/-- The telemetry event an expression gives at this step (R184; 10_state.md R62). -/
def teleValue (s : State) : TeleExpr → TeleEvent
  | .banner ok => .banner ok
  | .sampleOut => .sampleOut s.sample

/-- `TELE(e)`: hold until the sink accepts (R184). -/
def opTele (e : TeleExpr) (d : Draw) (s : State) : State :=
  if d.accept then (s.emit (.tele (teleValue s e))).nextOp else s

/-- `FINISH` (R185). -/
def opFinish (s : State) : State :=
  { s with busy := false, cur := none, upc := 0, failCount := 0 }.emit .finish

/-- `SETRX` (R186). -/
def opSetrx (s : State) : State := { s with rxdata := s.rxBuf.b0 }.nextOp

/-- `DECODE` (43_conversion.md R257). -/
def opDecode (s : State) : State := { s with sample := decodeSample s.rxBuf }.nextOp

/-! ## Micro-operations of identification -/

/-- `IDCHK` (42_identification.md R231). -/
def opIdchk (s : State) : State := { s with idNibble := topNibble s.rxdata }.nextOp

/-- `TELE_BANNER` (R232). -/
def opTeleBanner (d : Draw) (s : State) : State :=
  opTele (.banner (decide (s.idNibble = Config.expectedId))) d s

/-- `IDSET` (R233). -/
def opIdset (s : State) : State :=
  if s.idNibble = Config.expectedId then { s with idst := .ok }.nextOp
  else { s with idst := .halted, err := .errIdMismatch }.nextOp

/-! ## Micro-operations on the reset line -/

/-- `RSTA` (45_control.md R327). -/
def opRsta (s : State) : State := ({ s with rst := .asserted }.emit (.rst .asserted)).nextOp

/-- `RSTD` (45_control.md R327). -/
def opRstd (s : State) : State := ({ s with rst := .deasserted }.emit (.rst .deasserted)).nextOp

/-! ## Micro-operations on the secondary bus -/

/-- `IRQWAIT` (44_forwarding.md R292). -/
def opIrqwait (s : State) : State := if s.irqPending then s else s.nextOp

/-- `SELA` (R293). -/
def opSela (s : State) : State := ({ s with sel2 := .asserted }.emit (.sel2 .asserted .seq)).nextOp

/-- The value `ARM2` splits (R294). -/
def armValue (s : State) : Arm2Src → Sample
  | .imm v => v
  | .fromSample => s.sample

/-- `ARM2(src)` (R294). -/
def opArm2 (src : Arm2Src) (s : State) : State :=
  let b := splitSample (armValue s src)
  ({ s with tx2Buf := b, x2Idx := 0, x2Busy := true }.emit (.arm2 b.b0 b.b1 b.b2)).nextOp

/-- `POLL2`: the timeout step where the schedule takes it and the parameter is set, else hold while the
transfer is armed (R295, R296; 60_exceptions.md R350). -/
def opPoll2 (d : Draw) (s : State) : State :=
  if d.expire && Config.xfer2Timeout.isSome then abortWith .errUnresponsive id s
  else if s.x2Busy then s
  else s.nextOp

/-- `SELD` (R297). -/
def opSeld (s : State) : State :=
  ({ s with sel2 := .deasserted }.emit (.sel2 .deasserted .seq)).nextOp

/-! ## The Seq step -/

/-- Perform one micro-operation (40_bus_transaction.md R170, R173). A held one leaves the state as it is
(00_scope.md R16). -/
def perform (op : MicroOp) (d : Draw) (s : State) : State :=
  match op with
  | .csa => opCsa s
  | .csd => opCsd s
  | .xchg b dst => opXchg b dst d s
  | .gate => opGate d s
  | .delay n => opDelay n s
  | .clrrx => opClrrx s
  | .tele e => opTele e d s
  | .finish => opFinish s
  | .setrx => opSetrx s
  | .decode => opDecode s
  | .idchk => opIdchk s
  | .teleBanner => opTeleBanner d s
  | .idset => opIdset s
  | .rsta => opRsta s
  | .rstd => opRstd s
  | .irqwait => opIrqwait s
  | .sela => opSela s
  | .arm2 src => opArm2 src s
  | .poll2 => opPoll2 d s
  | .seld => opSeld s

/-- The running command's next micro-operation (40_bus_transaction.md R170). -/
def performAt (ops : List MicroOp) (d : Draw) (s : State) : Host.Outcome State Fault Refusal :=
  match ops[s.upc]? with
  | some op => .next (perform op d s)
  | none => .fault .microPcOutOfRange

/-- The meaning of a host command `c` with expansion `ops`, in the two parts the spec gives it: in the
Host step that presents its word, acceptance or rejection (60_exceptions.md R342 to R344); in a Seq step
while it runs, its next micro-operation (40_bus_transaction.md R170). In any other step it does nothing
(log entry 7). -/
def command (c : Cmd) (ops : List MicroOp) (s : State) : Host.Outcome State Fault Refusal :=
  match s.input with
  | .hostWrite _ _ w => .next (acceptCmd w c s)
  | .seq d => if s.cur = some c then performAt ops d s else .next s
  | .hostRead _ _ _ => .next s
  | .irq => .next s
  | .remote _ => .next s
  | .blockReset => .next s

/-- The meaning of a wire opcode: in a Seq step, the exchange of its byte at a frame's opcode position
(30_encoding.md R130, R132; 40_bus_transaction.md R176); in any other step nothing (log entry 9). -/
def wireOpcode (b : Byte) (s : State) : Host.Outcome State Fault Refusal :=
  match s.input with
  | .seq d => .next (opXchg b .discard d s)
  | .hostWrite _ _ _ => .next s
  | .hostRead _ _ _ => .next s
  | .irq => .next s
  | .remote _ => .next s
  | .blockReset => .next s

/-! ## The other agents' steps -/

/-- The completion handler, enabled while an interrupt is pending (60_exceptions.md R352). -/
def irqStep (s : State) : State :=
  if s.irqPending then
    { s with sel2 := .deasserted, irqPending := false }.emit (.sel2 .deasserted .irq)
  else s

/-- `complete()` (44_forwarding.md R300). -/
def completeTransfer (s : State) : State :=
  { s with x2Busy := false, irqPending := s.irqPending || s.cirqEn }.emit .done2

/-- `Remote` clocks one byte (44_forwarding.md R299). -/
def remoteStep (stray : Byte) (s : State) : Host.Outcome State Fault Refusal :=
  if s.x2Busy then
    match byteAt s.tx2Buf s.x2Idx.val with
    | some b =>
      let t := { s with x2Idx := s.x2Idx + 1 }.emit (.x2 b false)
      .next (if s.x2Idx = 2 then completeTransfer t else t)
    | none => .fault .armedIndexOutOfRange
  else .next (s.emit (.x2 stray true))

/-- `BlockReset` (70_reset_and_hazards.md R380): every field of 10_state.md R72 at its reset value; the
surroundings' fields stay. -/
def State.blockReset (s : State) : State :=
  { State.reset with script := s.script, tick := s.tick, hostOut := s.hostOut }

/-! ## The host register window -/

/-- The only admitted access: 32 bits, at a multiple of 4 inside the window (20_memory.md R101). -/
def admitted (off : Int) (n : Nat) : Bool :=
  n == 4 && decide (0 ≤ off) && decide (off < 0x20) && off % 4 == 0

/-- The offset of a byte address (20_memory.md R101). -/
def offsetOf (a : Nat) : Int := (a : Int) - (Config.hostBase : Int)

/-- `MemRead(a, n)`: the word an admitted read returns, none for a refused one (20_memory.md R101 to
R103). -/
def memRead (s : State) (a n : Nat) (drdy : Drdy) : Option Word :=
  if admitted (offsetOf a) n then some (windowWord s (offsetOf a) drdy) else none

/-- The Host's read step: the block is unchanged, the word goes to the host port (20_memory.md R102,
R103). -/
def hostReadStep (off : Int) (n : Nat) (drdy : Drdy) (s : State) :
    Host.Outcome State Fault Refusal :=
  if admitted off n then .next { s with hostOut := some (windowWord s off drdy) }
  else .refused (.hostAccess off n)

/-- An admitted write at an offset other than `CMD`'s: `CTRL` takes bit 0, the rest ignore it
(20_memory.md R104; 10_state.md R54). -/
def registerWrite (off : Int) (v : Word) (s : State) : State :=
  if off = 0x08 then { s with cirqEn := v.getLsbD 0 } else s

end Sys2Proof.Machine
end

