-- ==== Sys2Proof/Machine/Control.lean ====
section
/-! DEFINITION. Control commands: `NOP`, `WAIT`, `RESET_PULSE` (45_control.md). -/

namespace Sys2Proof.Machine

/-- The expansion of `NOP` (45_control.md R320). -/
def expandNop : List MicroOp := [.finish]

/-- The expansion of `WAIT n` (R323). -/
def expandWait (n : Sample) : List MicroOp := [.delay n.toNat, .finish]

/-- The expansion of `RESET_PULSE` (R326). -/
def expandResetPulse : List MicroOp :=
  [.rsta, .delay Config.tRstActive, .rstd, .delay Config.tRstRecover, .finish]

/-- `NOP` (R320). -/
def execNop (s : State) : Host.Outcome State Fault Refusal := command .nop expandNop s

/-- `WAIT n` (R323). -/
def execWait (n : Sample) (s : State) : Host.Outcome State Fault Refusal :=
  command (.wait n) (expandWait n) s

/-- `RESET_PULSE` (R326 to R328). -/
def execResetPulse (s : State) : Host.Outcome State Fault Refusal :=
  command .resetPulse expandResetPulse s

end Sys2Proof.Machine
end

