-- ==== Sys2Proof/Machine/Forwarding.lean ====
section
/-! DEFINITION. The Forwarding Bridge: `FORWARD` (44_forwarding.md). -/

namespace Sys2Proof.Machine

/-- A secondary push of the value `src` names, without `FINISH` (44_forwarding.md R290). -/
def pushOps (src : Arm2Src) : List MicroOp := [.irqwait, .sela, .arm2 src, .poll2, .seld]

/-- The expansion of `FORWARD s` (R290). -/
def expandForward (s : Sample) : List MicroOp := pushOps (.imm s) ++ [.finish]

/-- `FORWARD v` (R290 to R304). -/
def execForward (v : Sample) (s : State) : Host.Outcome State Fault Refusal :=
  command (.forward v) (expandForward v) s

end Sys2Proof.Machine
end

