-- ==== Sys2Proof/Machine/Conversion.lean ====
section
/-! DEFINITION. The conversion pipeline: `CONFIGURE`, `RDATA`, `ACQUIRE` (43_conversion.md). -/

namespace Sys2Proof.Machine

/-- The expansion of `CONFIGURE` (43_conversion.md R250). -/
def expandConfigure : List MicroOp := [.gate] ++ configureFrame ++ [.delay Config.tCfg, .finish]

/-- The expansion of `RDATA` without `FINISH` (R255, R272). -/
def readDataOps : List MicroOp :=
  [.delay Config.tPretrig, .gate, .clrrx] ++ rdataFrame ++ [.decode, .delay Config.tPosttrig]

/-- The expansion of `RDATA` (R255). -/
def expandRdata : List MicroOp := readDataOps ++ [.finish]

/-- The expansion of `ACQUIRE ch` (R272). -/
def expandAcquire (ch : Nibble) : List MicroOp :=
  wregFrame Config.muxAddr (Config.muxValue ch) ++ opcodeFrame 0xFC ++ opcodeFrame 0x00
    ++ readDataOps ++ pushOps .fromSample ++ [.tele .sampleOut, .finish]

/-- `CONFIGURE` (R250 to R253). -/
def execConfigure (s : State) : Host.Outcome State Fault Refusal :=
  command .configure expandConfigure s

/-- `RDATA` (R255 to R258). -/
def execRdata (s : State) : Host.Outcome State Fault Refusal := command .rdata expandRdata s

/-- `ACQUIRE ch` (R270 to R277). -/
def execAcquire (ch : Nibble) (s : State) : Host.Outcome State Fault Refusal :=
  command (.acquire ch) (expandAcquire ch) s

end Sys2Proof.Machine
end

