-- ==== Sys2Proof/Machine/Identification.lean ====
section
/-! DEFINITION. Identification: `IDENTIFY` (42_identification.md). -/

namespace Sys2Proof.Machine

/-- The expansion of `IDENTIFY` (42_identification.md R230). -/
def expandIdentify : List MicroOp :=
  [.gate, .gate, .clrrx] ++ rregFrame Config.statusAddr
    ++ [.delay Config.tRreg, .setrx, .idchk, .teleBanner, .idset, .finish]

/-- `IDENTIFY` (R230 to R238). -/
def execIdentify (s : State) : Host.Outcome State Fault Refusal :=
  command .identify expandIdentify s

end Sys2Proof.Machine
end

