-- ==== Sys2Proof/Machine/RegisterAccess.lean ====
section
/-! DEFINITION. Register access: `RREG`, `WREG`, `OPCODE` and its two named words (41_register_access.md). -/

namespace Sys2Proof.Machine

/-- The expansion of `RREG a` (41_register_access.md R200). -/
def expandRreg (a : Nibble) : List MicroOp :=
  [.gate, .clrrx] ++ rregFrame a ++ [.delay Config.tRreg, .setrx, .finish]

/-- The expansion of `WREG a, v` (R205). -/
def expandWreg (a : Nibble) (v : Byte) : List MicroOp := wregFrame a v ++ [.finish]

/-- The expansion of `OPCODE b` (R209). -/
def expandOpcode (b : Byte) : List MicroOp := opcodeFrame b ++ [.finish]

/-- `RREG a` (R200 to R202). -/
def execRreg (a : Nibble) (s : State) : Host.Outcome State Fault Refusal :=
  command (.rreg a) (expandRreg a) s

/-- `WREG a, v` (R205 to R207). -/
def execWreg (a : Nibble) (v : Byte) (s : State) : Host.Outcome State Fault Refusal :=
  command (.wreg a v) (expandWreg a v) s

/-- `OPCODE b` (R209, R210). -/
def execOpcode (b : Byte) (s : State) : Host.Outcome State Fault Refusal :=
  command (.opcode b) (expandOpcode b) s

/-- `SYNC` = `OPCODE 0xFC` (30_encoding.md R144). -/
def execSync (s : State) : Host.Outcome State Fault Refusal :=
  command (.opcode 0xFC) (expandOpcode 0xFC) s

/-- `WAKEUP` = `OPCODE 0x00` (30_encoding.md R144). -/
def execWakeup (s : State) : Host.Outcome State Fault Refusal :=
  command (.opcode 0x00) (expandOpcode 0x00) s

end Sys2Proof.Machine
end

