-- ==== Sys2Proof/Machine/Wire.lean ====
section
/-! DEFINITION. The wire opcodes (30_encoding.md R130 to R132): each is the opcode byte of a frame, sent
in one exchange of the primary bus. -/

namespace Sys2Proof.Machine

/-- Wire opcode `0x10 | a` (30_encoding.md R131, R132). -/
def execWireRreg (a : Nibble) (s : State) : Host.Outcome State Fault Refusal :=
  wireOpcode (readOpcode a) s

/-- Wire opcode `0x50 | a` (R131, R132). -/
def execWireWreg (a : Nibble) (s : State) : Host.Outcome State Fault Refusal :=
  wireOpcode (writeOpcode a) s

/-- Wire opcode 0xFC, synchronize (R132). -/
def execWireSync (s : State) : Host.Outcome State Fault Refusal := wireOpcode 0xFC s

/-- Wire opcode 0x00, wake from standby (R132). -/
def execWireWakeup (s : State) : Host.Outcome State Fault Refusal := wireOpcode 0x00 s

/-- Wire opcode 0x01, read conversion data (R132). -/
def execWireRdata (s : State) : Host.Outcome State Fault Refusal := wireOpcode 0x01 s

end Sys2Proof.Machine
end

