-- ==== Sys2Proof/Machine/Dispatch.lean ====
section
/-! DEFINITION. One arm per row of the opcode table, each a direct call of its meaning. -/

namespace Sys2Proof.Machine

def exec (i : Instr) (s : State) : Host.Outcome State Fault Refusal :=
  match i with
  | .nop => Sys2Proof.Machine.execNop s
  | .rreg a => Sys2Proof.Machine.execRreg a s
  | .wreg a v => Sys2Proof.Machine.execWreg a v s
  | .opcode b => Sys2Proof.Machine.execOpcode b s
  | .rdata => Sys2Proof.Machine.execRdata s
  | .identify => Sys2Proof.Machine.execIdentify s
  | .configure => Sys2Proof.Machine.execConfigure s
  | .acquire ch => Sys2Proof.Machine.execAcquire ch s
  | .forward v => Sys2Proof.Machine.execForward v s
  | .resetPulse => Sys2Proof.Machine.execResetPulse s
  | .wait n => Sys2Proof.Machine.execWait n s
  | .sync => Sys2Proof.Machine.execSync s
  | .wakeup => Sys2Proof.Machine.execWakeup s
  | .wireRreg a => Sys2Proof.Machine.execWireRreg a s
  | .wireWreg a => Sys2Proof.Machine.execWireWreg a s
  | .wireSync => Sys2Proof.Machine.execWireSync s
  | .wireWakeup => Sys2Proof.Machine.execWireWakeup s
  | .wireRdata => Sys2Proof.Machine.execWireRdata s

end Sys2Proof.Machine
end

