-- ==== Sys2Proof/Machine/Fetch.lean ====
section
/-! DEFINITION. What a step runs: `expand` of 40_bus_transaction.md R171, and which instruction, or which
other agent's action, the step's input calls for (00_scope.md R11; 20_memory.md R102 to R104). -/

namespace Sys2Proof.Machine

/-- `expand` (40_bus_transaction.md R171). -/
def expand : Cmd → List MicroOp
  | .nop => expandNop
  | .rreg a => expandRreg a
  | .wreg a v => expandWreg a v
  | .opcode b => expandOpcode b
  | .rdata => expandRdata
  | .identify => expandIdentify
  | .configure => expandConfigure
  | .acquire ch => expandAcquire ch
  | .forward s => expandForward s
  | .resetPulse => expandResetPulse
  | .wait n => expandWait n

/-- What a step does: run an instruction, or an action that is no instruction's. -/
inductive Fetch where
  | run (i : Instr)
  | other (o : Host.Outcome State Fault Refusal)

/-- A word written to `CMD` (60_exceptions.md R342, R343): the busy check, then decoding, then the
decoded instruction's own acceptance. -/
def presentWord (w : Word) (s : State) : Fetch :=
  if s.busy then .other (.next (rejectWord w .errBusy s))
  else
    match decodeWord w with
    | .error e => .other (.next (rejectWord w e s))
    | .ok i => .run i

/-- The wire opcode at index `k` of an expansion: the byte right after a `CSA`, where the table has it
(30_encoding.md R130, R132, R148). -/
def wireOpcodeAt (ops : List MicroOp) (k : Nat) : Option Instr :=
  match k with
  | 0 => none
  | j + 1 =>
    match ops[j]?, ops[j + 1]? with
    | some .csa, some (.xchg b .discard) => decodeWire b
    | _, _ => none

/-- The Seq step's instruction: the wire opcode where a frame's opcode byte is due, else the running
command (40_bus_transaction.md R170). With no command `Seq` has no step. -/
def seqFetch (s : State) : Fetch :=
  match s.cur with
  | none => .other (.next s)
  | some c =>
    match wireOpcodeAt (expand c) s.upc with
    | some i => .run i
    | none => .run (instrOf c)

/-- What the next step does, by its input. -/
def fetch (s : State) : Fetch :=
  match s.input with
  | .hostRead off n drdy => .other (hostReadStep off n drdy s)
  | .hostWrite off n v =>
    if admitted off n then
      if off = 0 then presentWord v s else .other (.next (registerWrite off v s))
    else .other (.refused (.hostAccess off n))
  | .seq _ => seqFetch s
  | .irq => .other (.next (irqStep s))
  | .remote stray => .other (remoteStep stray s)
  | .blockReset => .other (.next s.blockReset)

end Sys2Proof.Machine
end

