-- ==== Sys2Proof/Machine/Step.lean ====
section
/-! DEFINITION. One step of the machine: one atomic step of the agent its input names (20_memory.md R111,
R114), and how the host places an instruction for the next step. -/

namespace Sys2Proof.Machine

/-- One step: what the input calls for, after which the input is used. -/
def step (s : State) : Host.Outcome State Fault Refusal :=
  onNext State.advance
    (match fetch s with
    | .run i => exec i s
    | .other o => o)

/-- Place an encoding for the next step (log entry 15). A command word is the Host's next write to `CMD`.
A wire opcode is the byte due next in a bare-opcode frame whose `CS1` is asserted, with `Seq` granted. -/
def State.withFetchWord (s : State) (nbits w : Nat) : State :=
  if nbits = 8 then
    { s with
      cs1 := .asserted
      busy := true
      cur := some (.opcode (BitVec.ofNat 8 w))
      upc := 1
      script := .seq { grant := true, miso := 0, xerr := false, drdy := .low, accept := true,
                       expire := false } :: s.script }
  else { s with script := .hostWrite 0 4 (BitVec.ofNat 32 w) :: s.script }

end Sys2Proof.Machine
end

