-- ==== Sys2Proof/Machine/Assembler.lean ====
section
/-! DEFINITION. The assembler syntax (30_encoding.md R143) and the pseudo-instructions (R144): one line of
text to the command words it stands for. -/

namespace Sys2Proof.Machine

/-- A blank between tokens (log entry 20). -/
def isBlank (c : Char) : Bool := c == ' ' || c == '\t'

/-- The text without its blanks at either end. -/
def trimText (t : List Char) : List Char :=
  ((t.dropWhile isBlank).reverse.dropWhile isBlank).reverse

/-- The text before a comment (R143). -/
def codePart (t : List Char) : List Char := t.takeWhile (fun c => c != ';')

/-- The operands of a line, separated by commas (R143). -/
def splitCommas : List Char → List (List Char)
  | [] => [[]]
  | c :: cs =>
    if c = ',' then [] :: splitCommas cs
    else
      match splitCommas cs with
      | [] => [[c]]
      | t :: ts => (c :: t) :: ts

/-- The value of a hexadecimal digit. -/
def digitValue (c : Char) : Option Nat :=
  if '0' ≤ c ∧ c ≤ '9' then some (c.toNat - '0'.toNat)
  else if 'a' ≤ c ∧ c ≤ 'f' then some (c.toNat - 'a'.toNat + 10)
  else if 'A' ≤ c ∧ c ≤ 'F' then some (c.toNat - 'A'.toNat + 10)
  else none

/-- The value of a digit string, after the digits worth `acc`. -/
def digitsValue (base acc : Nat) : List Char → Option Nat
  | [] => some acc
  | c :: cs =>
    match digitValue c with
    | some v => if v < base then digitsValue base (acc * base + v) cs else none
    | none => none

/-- A decimal or `0x` hexadecimal number (R143). -/
def numberValue (t : List Char) : Option Nat :=
  match t with
  | [] => none
  | '0' :: 'x' :: c :: cs => digitsValue 16 0 (c :: cs)
  | c :: cs => digitsValue 10 0 (c :: cs)

/-- An operand below its bound as a bit field; out of range is an assembly error (R143). -/
def fieldValue (width n : Nat) : Option (BitVec width) :=
  if n < 2 ^ width then some (BitVec.ofNat width n) else none

/-- A command with one operand. -/
def assembleOne (width : Nat) (f : BitVec width → Cmd) (ops : List Nat) : Option (List Word) :=
  match ops with
  | [n] => (fieldValue width n).map (fun v => [encodeCmd (f v)])
  | _ => none

/-- Commands without operands. -/
def assemblePlain (cs : List Cmd) (ops : List Nat) : Option (List Word) :=
  if ops = [] then some (cs.map encodeCmd) else none

/-- `WREG a, v`. -/
def assembleWreg (ops : List Nat) : Option (List Word) :=
  match ops with
  | [n, m] =>
    match fieldValue 4 n, fieldValue 8 m with
    | some a, some v => some [encodeCmd (.wreg a v)]
    | _, _ => none
  | _ => none

/-- `ACQUIRE ch` with `ch` in 0..`NUM_CHANNELS`-1. -/
def assembleAcquire (ops : List Nat) : Option (List Word) :=
  match ops with
  | [n] =>
    if n < Config.numChannels then (fieldValue 4 n).map (fun ch => [encodeCmd (.acquire ch)]) else none
  | _ => none

/-- The words of a mnemonic in capitals with its operands (R143, R144). -/
def assembleCommand (mnemonic : List Char) (ops : List Nat) : Option (List Word) :=
  if mnemonic = ['N', 'O', 'P'] then assemblePlain [.nop] ops
  else if mnemonic = ['R', 'R', 'E', 'G'] then assembleOne 4 .rreg ops
  else if mnemonic = ['W', 'R', 'E', 'G'] then assembleWreg ops
  else if mnemonic = ['O', 'P', 'C', 'O', 'D', 'E'] then assembleOne 8 .opcode ops
  else if mnemonic = ['R', 'D', 'A', 'T', 'A'] then assemblePlain [.rdata] ops
  else if mnemonic = ['I', 'D', 'E', 'N', 'T', 'I', 'F', 'Y'] then assemblePlain [.identify] ops
  else if mnemonic = ['C', 'O', 'N', 'F', 'I', 'G', 'U', 'R', 'E'] then assemblePlain [.configure] ops
  else if mnemonic = ['A', 'C', 'Q', 'U', 'I', 'R', 'E'] then assembleAcquire ops
  else if mnemonic = ['F', 'O', 'R', 'W', 'A', 'R', 'D'] then assembleOne 24 .forward ops
  else if mnemonic = ['R', 'E', 'S', 'E', 'T', '_', 'P', 'U', 'L', 'S', 'E'] then
    assemblePlain [.resetPulse] ops
  else if mnemonic = ['W', 'A', 'I', 'T'] then assembleOne 24 .wait ops
  else if mnemonic = ['S', 'Y', 'N', 'C'] then assemblePlain [.opcode 0xFC] ops
  else if mnemonic = ['W', 'A', 'K', 'E', 'U', 'P'] then assemblePlain [.opcode 0x00] ops
  else if mnemonic = ['S', 'T', 'A', 'R', 'T', 'U', 'P'] then
    assemblePlain [.resetPulse, .identify, .configure] ops
  else none

/-- The operands of a line as numbers; a line without operands has none. -/
def operandNumbers (t : List Char) : Option (List Nat) :=
  if t = [] then some [] else (splitCommas t).mapM (fun u => numberValue (trimText u))

/-- The words of one line (R143): none for an assembly error, no words for a line without a command
(log entry 20). -/
def assembleLine (line : List Char) : Option (List Word) :=
  let t := trimText (codePart line)
  if t = [] then some []
  else
    match operandNumbers (trimText (t.dropWhile (fun c => !isBlank c))) with
    | some ops => assembleCommand ((t.takeWhile (fun c => !isBlank c)).map Char.toUpper) ops
    | none => none

end Sys2Proof.Machine
end

