-- ==== Sys2Proof/Machine/HostProgram.lean ====
section
/-! DEFINITION. The host's issue procedure (70_reset_and_hazards.md R391) and boot program (R390, R392) as
a controller that asks for one window access at a time. `step` leaves the Host free and does not use it. -/

namespace Sys2Proof.Machine

/-- Which command the boot program is issuing (R392); `stopped` is the end after a mismatch. -/
inductive BootPhase where
  | resetPulse
  | identify
  | configure
  | acquire
  | wait
  | stopped
  deriving DecidableEq, Repr

/-- Where `issue(w)` stands (R391). -/
inductive IssuePhase where
  | pollBefore
  | writeCmd
  | pollAfter
  deriving DecidableEq, Repr

/-- The boot program's place. -/
structure Boot where
  phase : BootPhase
  issue : IssuePhase
  deriving DecidableEq, Repr

/-- The start of the boot program (R390). -/
def bootStart : Boot := ⟨.resetPulse, .pollBefore⟩

/-- The word issued in a phase (R392). -/
def bootWord : BootPhase → Option Word
  | .resetPulse => some (encodeCmd .resetPulse)
  | .identify => some (encodeCmd .identify)
  | .configure => some (encodeCmd .configure)
  | .acquire => some (encodeCmd (.acquire 0))
  | .wait => some (encodeCmd (.wait (BitVec.ofNat 24 Config.tPeriod)))
  | .stopped => none

/-- The window access the program makes next, with the level drawn if it is a read; none once stopped
(R391, R392). -/
def bootRequest (b : Boot) (drdy : Drdy) : Option Input :=
  match bootWord b.phase with
  | none => none
  | some w =>
    match b.issue with
    | .pollBefore => some (.hostRead 0x04 4 drdy)
    | .writeCmd => some (.hostWrite 0x00 4 w)
    | .pollAfter => some (.hostRead 0x04 4 drdy)

/-- The phase after a command whose last status read gave `r` (R392): a mismatch stops the program. -/
def bootAfter (p : BootPhase) (r : Word) : BootPhase :=
  match p with
  | .resetPulse => .identify
  | .identify => if r.extractLsb' 1 2 = 1 then .configure else .stopped
  | .configure => .acquire
  | .acquire => .wait
  | .wait => .acquire
  | .stopped => .stopped

/-- The program's place after its access; `r` is the word a read returned (R391). -/
def bootNext (b : Boot) (r : Word) : Boot :=
  match b.issue with
  | .pollBefore => if r.getLsbD 0 then b else ⟨b.phase, .writeCmd⟩
  | .writeCmd => ⟨b.phase, .pollAfter⟩
  | .pollAfter => if r.getLsbD 0 then b else ⟨bootAfter b.phase r, .pollBefore⟩

end Sys2Proof.Machine
end

