-- ==== Sys2Proof/Safety.lean ====
section
/-! DEFINITION. The terms claims use: how far a command has come in its frames, the invariant of the
machine, quiet events, default parameters, runs on a stream of inputs and the fairness assumptions of
40_bus_transaction.md R184 and R190. -/

namespace Sys2Proof.Machine

/-! ## How far a command has come -/

/-- A frame is open after these micro-operations: the last `CS1` edge asserted it (R181). -/
def csOpen (ops : List MicroOp) : Bool :=
  ops.foldl (fun b op => match op with | .csa => true | .csd => false | _ => b) false

/-- The device's reset line is held after these micro-operations (45_control.md R327). -/
def rstOpen (ops : List MicroOp) : Bool :=
  ops.foldl (fun b op => match op with | .rsta => true | .rstd => false | _ => b) false

/-- A push is open after these micro-operations: `SELA` without its `SELD` (44_forwarding.md R301). -/
def selOpen (ops : List MicroOp) : Bool :=
  ops.foldl (fun b op => match op with | .sela => true | .seld => false | _ => b) false

/-- The micro-operations the running command has performed. -/
def doneOps (s : State) : List MicroOp :=
  match s.cur with
  | some c => (expand c).take s.upc
  | none => []

/-- The micro-operation `Seq` performs next, if a command runs (40_bus_transaction.md R170). -/
def nextMicroOp (s : State) : Option MicroOp :=
  match s.cur with
  | some c => (expand c)[s.upc]?
  | none => none

/-- The identity state a running command leaves possible (60_exceptions.md R344; 42_identification.md
R233): `IDENTIFY` runs in UNCHECKED up to its `IDSET`, at index 13, and has left it after. -/
def identityFits (idst : IdState) (c : Cmd) (upc : Nat) : Prop :=
  match c with
  | .nop => True
  | .wait _ | .resetPulse => idst ≠ .halted
  | .identify => if upc ≤ 13 then idst = .unchecked else idst ≠ .unchecked
  | .rreg _ | .wreg _ _ | .opcode _ | .rdata | .configure | .acquire _ | .forward _ => idst = .ok

/-! ## The invariant -/

/-- What holds between the fields of every state a run reaches. -/
structure Inv (s : State) : Prop where
  /-- `BUSY` is 1 exactly while a command is latched (10_state.md R50, R64). -/
  busy_cur : s.busy = s.cur.isSome
  /-- The micro-pc is 0 while no command runs (R67). -/
  idle_upc : s.cur = none → s.upc = 0
  /-- The micro-pc is an index of the running command's expansion (R67). -/
  upc_lt : ∀ c, s.cur = some c → s.upc < (expand c).length
  /-- `CS1` is asserted exactly inside a frame (40_bus_transaction.md R181). -/
  cs1_frame : s.cs1 = .asserted ↔ csOpen (doneOps s) = true
  /-- `RST` is asserted exactly inside a reset pulse (10_state.md R45; 45_control.md R327). -/
  rst_pulse : s.rst = .asserted ↔ rstOpen (doneOps s) = true
  /-- `SEL2` is asserted only inside a push (44_forwarding.md R301). -/
  sel2_push : s.sel2 = .asserted → selOpen (doneOps s) = true
  /-- An armed transfer keeps `SEL2` asserted (44_forwarding.md R302). -/
  armed_sel2 : s.x2Busy = true → s.sel2 = .asserted
  /-- A transfer is armed only while `Seq` polls it (R294, R295). -/
  armed_poll : s.x2Busy = true → nextMicroOp s = some .poll2
  /-- An armed transfer has a byte left (R299, R300). -/
  armed_index : s.x2Busy = true → s.x2Idx.val < 3
  /-- No completion is pending while a transfer is armed (60_exceptions.md R353). -/
  armed_irq : s.x2Busy = true → s.irqPending = false
  /-- No completion is pending when a push asserts `SEL2` (44_forwarding.md R292). -/
  sela_irq : nextMicroOp s = some .sela → s.irqPending = false
  /-- Nor when it arms its transfer, with `SEL2` asserted (R292, R302). -/
  arm_sel2 : ∀ src, nextMicroOp s = some (.arm2 src) → s.sel2 = .asserted ∧ s.irqPending = false
  /-- The identity state fits the running command (60_exceptions.md R344). -/
  identity : ∀ c, s.cur = some c → identityFits s.idst c s.upc
  /-- A running `ACQUIRE` has a channel in range (30_encoding.md R139). -/
  channel : ∀ ch, s.cur = some (.acquire ch) → ch.toNat < Config.numChannels
  /-- In state OK the device's ID is the expected one (42_identification.md R232). -/
  id_matches : s.idst = .ok → s.idNibble = Config.expectedId
  /-- Failures are counted only where transfer errors are checked (10_state.md R63). -/
  failures_checked : Config.checkXferErr = false → s.failCount = 0
  /-- At the failure limit the block is halted (60_exceptions.md R349). -/
  limit_halts : failLimitReached s.failCount = true → s.idst = .halted

/-! ## Classes of events and parameters -/

/-- The parameters at the spec's defaults (00_scope.md R12; 90_conflicts.md C4). -/
def DefaultParameters : Prop :=
  Config.readyTimeout = none ∧ Config.xfer2Timeout = none ∧ Config.checkXferErr = false
    ∧ Config.maxConsecFail = none

/-- Events that are no bus activity of `Seq` (42_identification.md R234): acceptance, rejection, the end
of a command, the handler's deassert, and a byte clocked with nothing armed. -/
def quietEvent : Event → Bool
  | .accept _ | .reject _ _ | .finish | .sel2 .deasserted .irq | .x2 _ true => true
  | _ => false

/-! ## Runs -/

/-- `n` steps from `s` on the inputs `f 0`, `f 1`, …: the schedule and all draws are `f`'s. -/
def runOn (f : Nat → Input) : Nat → State → Host.Outcome State Fault Refusal
  | 0, s => .next s
  | n + 1, s =>
    match runOn f n s with
    | .next t => step { t with script := [f n] }
    | .fault r => .fault r
    | .refused r => .refused r

/-- `XPORT_FAIR` (40_bus_transaction.md R190): from any time on, some Seq turn is granted. -/
def XportFair (f : Nat → Input) : Prop := ∀ k, ∃ n d, k ≤ n ∧ f n = .seq d ∧ d.grant = true

/-- `TELE_FAIR` (R184): from any time on, some Seq turn finds the sink accepting. -/
def TeleFair (f : Nat → Input) : Prop := ∀ k, ∃ n d, k ≤ n ∧ f n = .seq d ∧ d.accept = true

/-- The device is ready at some later Seq turn, from any time on (R178). -/
def DeviceFair (f : Nat → Input) : Prop := ∀ k, ∃ n d, k ≤ n ∧ f n = .seq d ∧ d.drdy = .low

/-- `Remote` clocks again and again, and the handler gets its turn again and again (44_forwarding.md
R292, R295). -/
def PushFair (f : Nat → Input) : Prop :=
  (∀ k, ∃ n b, k ≤ n ∧ f n = .remote b) ∧ (∀ k, ∃ n, k ≤ n ∧ f n = .irq)

/-- No block reset, and only accesses the window admits (70_reset_and_hazards.md R380; 20_memory.md
R103). -/
def Undisturbed (f : Nat → Input) : Prop :=
  ∀ n, f n ≠ .blockReset ∧
    (∀ off k drdy, f n = .hostRead off k drdy → admitted off k = true) ∧
    (∀ off k v, f n = .hostWrite off k v → admitted off k = true)

end Sys2Proof.Machine
end

