-- ==== Sys2Proof/Certificates/Slice0/Obligations.lean ====
section
/-! DEFINITION. The statements for the provers. The tables `afterRreg`, … give, for each command, the state
after each of its micro-operations, written out from the spec's listings and not through the model's own
operations. -/

namespace Sys2Proof.Statements

open Sys2Proof.Machine

/-! ## Effects of single micro-operations, as record updates -/

/-- Event `e` is emitted and the micro-pc advances. -/
def logs (e : Event) (s : State) : State := { s with trace := s.trace ++ [e], upc := s.upc + 1 }

/-- Only the micro-pc advances. -/
def passes (s : State) : State := { s with upc := s.upc + 1 }

/-- `CS1` is asserted (40_bus_transaction.md R174). -/
def selects (s : State) : State :=
  { s with cs1 := .asserted, trace := s.trace ++ [.cs1 .asserted], upc := s.upc + 1 }

/-- `CS1` is deasserted (R175). -/
def deselects (s : State) : State :=
  { s with cs1 := .deasserted, trace := s.trace ++ [.cs1 .deasserted], upc := s.upc + 1 }

/-- Byte `b` is exchanged and the received one discarded (R176). -/
def sends (b : Byte) (d : Draw) (s : State) : State :=
  { s with trace := s.trace ++ [.x1 b d.miso d.xerr], upc := s.upc + 1 }

/-- `RX_FILL` is exchanged and the received byte kept at index 0, 1 or 2 (R176). -/
def keeps0 (d : Draw) (s : State) : State :=
  { s with
    rxBuf := ⟨d.miso, s.rxBuf.b1, s.rxBuf.b2⟩
    trace := s.trace ++ [.x1 Config.rxFill d.miso d.xerr], upc := s.upc + 1 }

def keeps1 (d : Draw) (s : State) : State :=
  { s with
    rxBuf := ⟨s.rxBuf.b0, d.miso, s.rxBuf.b2⟩
    trace := s.trace ++ [.x1 Config.rxFill d.miso d.xerr], upc := s.upc + 1 }

def keeps2 (d : Draw) (s : State) : State :=
  { s with
    rxBuf := ⟨s.rxBuf.b0, s.rxBuf.b1, d.miso⟩
    trace := s.trace ++ [.x1 Config.rxFill d.miso d.xerr], upc := s.upc + 1 }

/-- The receive buffer is cleared (R183). -/
def clears (s : State) : State := { s with rxBuf := ⟨0x00, 0x00, 0x00⟩, upc := s.upc + 1 }

/-- The command ends (R185). -/
def ends (s : State) : State :=
  { s with
    busy := false, cur := none, upc := 0, failCount := 0, trace := s.trace ++ [.finish] }

/-- A rejection with code `e` of word `w` (60_exceptions.md R343). -/
def rejected (w : Word) (e : ErrCode) (s : State) : State :=
  { s with err := e, trace := s.trace ++ [.reject w e] }

/-- The receive buffer with byte `v` kept where position `dst` keeps it (R173). -/
def keptBytes (dst : Dst) (v : Byte) (b : Bytes3) : Bytes3 :=
  match dst with
  | .discard => b
  | .rx 0 => ⟨v, b.b1, b.b2⟩
  | .rx 1 => ⟨b.b0, v, b.b2⟩
  | .rx 2 => ⟨b.b0, b.b1, v⟩

/-- The value of three received bytes by the spec's sum (43_conversion.md R257). -/
def sumOf (b : Bytes3) : Nat := b.b2.toNat * 65536 + b.b1.toNat * 256 + b.b0.toNat

/-- Bits `lo + 7` to `lo` of a sample, by shift and mask (44_forwarding.md R291). -/
def sampleByte (v : Sample) (lo : Nat) : Byte := BitVec.ofNat 8 (v.toNat >>> lo % 256)

/-- The transfer is armed with value `v` (R294). -/
def arms (v : Sample) (s : State) : State :=
  { s with
    tx2Buf := ⟨sampleByte v 16, sampleByte v 8, sampleByte v 0⟩, x2Idx := 0, x2Busy := true
    trace := s.trace ++ [.arm2 (sampleByte v 16) (sampleByte v 8) (sampleByte v 0)]
    upc := s.upc + 1 }

/-- `SEL2` is asserted (R293) or deasserted (R297) by `Seq`. -/
def assertsSel2 (s : State) : State :=
  { s with sel2 := .asserted, trace := s.trace ++ [.sel2 .asserted .seq], upc := s.upc + 1 }

def deassertsSel2 (s : State) : State :=
  { s with sel2 := .deasserted, trace := s.trace ++ [.sel2 .deasserted .seq], upc := s.upc + 1 }

/-- The sample register takes the received value (43_conversion.md R257). -/
def decodes (s : State) : State :=
  { s with sample := BitVec.ofNat 24 (sumOf s.rxBuf), upc := s.upc + 1 }

/-! ## The commands' listings, by micro-pc -/

/-- `RREG a` (41_register_access.md R200). -/
def afterRreg (a : Nibble) (d : Draw) (s : State) : State :=
  match s.upc with
  | 0 => passes s
  | 1 => clears s
  | 2 => selects s
  | 3 => sends (0x10 + a.zeroExtend 8) d s
  | 4 => sends 0x00 d s
  | 5 => sends 0xFF d s
  | 6 => keeps0 d s
  | 7 => deselects s
  | 8 => logs (.delay 100) s
  | 9 => { s with rxdata := s.rxBuf.b0, upc := 10 }
  | _ => ends s

/-- `WREG a, v` (R205). -/
def afterWreg (a : Nibble) (v : Byte) (d : Draw) (s : State) : State :=
  match s.upc with
  | 0 => selects s
  | 1 => sends (0x50 + a.zeroExtend 8) d s
  | 2 => sends 0x00 d s
  | 3 => sends v d s
  | 4 => deselects s
  | _ => ends s

/-- `OPCODE b` (R209). -/
def afterOpcode (b : Byte) (d : Draw) (s : State) : State :=
  match s.upc with
  | 0 => selects s
  | 1 => sends b d s
  | 2 => deselects s
  | _ => ends s

/-- `IDENTIFY` (42_identification.md R230 to R233). -/
def afterIdentify (d : Draw) (s : State) : State :=
  match s.upc with
  | 0 => passes s
  | 1 => passes s
  | 2 => clears s
  | 3 => selects s
  | 4 => sends (0x10 + Config.statusAddr.zeroExtend 8) d s
  | 5 => sends 0x00 d s
  | 6 => sends 0xFF d s
  | 7 => keeps0 d s
  | 8 => deselects s
  | 9 => logs (.delay 100) s
  | 10 => { s with rxdata := s.rxBuf.b0, upc := 11 }
  | 11 => { s with idNibble := BitVec.ofNat 4 (s.rxdata.toNat / 16), upc := 12 }
  | 12 => logs (.tele (.banner (decide (s.idNibble = 3)))) s
  | 13 =>
    if s.idNibble = 3 then { s with idst := .ok, upc := 14 }
    else { s with idst := .halted, err := .errIdMismatch, upc := 14 }
  | _ => ends s

/-- `CONFIGURE` (43_conversion.md R250). -/
def afterConfigure (d : Draw) (s : State) : State :=
  match s.upc with
  | 0 => passes s
  | 1 => selects s
  | 2 => sends (0x50 + Config.cfgBase.zeroExtend 8) d s
  | 3 => sends 0x03 d s
  | 4 => sends (Config.cfgBlock 0) d s
  | 5 => sends (Config.cfgBlock 1) d s
  | 6 => sends (Config.cfgBlock 2) d s
  | 7 => sends (Config.cfgBlock 3) d s
  | 8 => deselects s
  | 9 => logs (.delay 1) s
  | _ => ends s

/-- `RDATA` (R255, R257). -/
def afterRdata (d : Draw) (s : State) : State :=
  match s.upc with
  | 0 => logs (.delay 1) s
  | 1 => passes s
  | 2 => clears s
  | 3 => selects s
  | 4 => sends 0x01 d s
  | 5 => keeps0 d s
  | 6 => keeps1 d s
  | 7 => keeps2 d s
  | 8 => deselects s
  | 9 => decodes s
  | 10 => logs (.delay 10) s
  | _ => ends s

/-- `ACQUIRE ch` (R272). -/
def afterAcquire (ch : Nibble) (d : Draw) (s : State) : State :=
  match s.upc with
  | 0 => selects s
  | 1 => sends (0x50 + Config.muxAddr.zeroExtend 8) d s
  | 2 => sends 0x00 d s
  | 3 => sends (Config.muxValue ch) d s
  | 4 => deselects s
  | 5 => selects s
  | 6 => sends 0xFC d s
  | 7 => deselects s
  | 8 => selects s
  | 9 => sends 0x00 d s
  | 10 => deselects s
  | 11 => logs (.delay 1) s
  | 12 => passes s
  | 13 => clears s
  | 14 => selects s
  | 15 => sends 0x01 d s
  | 16 => keeps0 d s
  | 17 => keeps1 d s
  | 18 => keeps2 d s
  | 19 => deselects s
  | 20 => decodes s
  | 21 => logs (.delay 10) s
  | 22 => passes s
  | 23 => assertsSel2 s
  | 24 => arms s.sample s
  | 25 => passes s
  | 26 => deassertsSel2 s
  | 27 => logs (.tele (.sampleOut s.sample)) s
  | _ => ends s

/-- `FORWARD v` (44_forwarding.md R290). -/
def afterForward (v : Sample) (s : State) : State :=
  match s.upc with
  | 0 => passes s
  | 1 => assertsSel2 s
  | 2 => arms v s
  | 3 => passes s
  | 4 => deassertsSel2 s
  | _ => ends s

/-- `RESET_PULSE` (45_control.md R326, R327). -/
def afterResetPulse (s : State) : State :=
  match s.upc with
  | 0 => { s with rst := .asserted, trace := s.trace ++ [.rst .asserted], upc := 1 }
  | 1 => logs (.delay 200) s
  | 2 => { s with rst := .deasserted, trace := s.trace ++ [.rst .deasserted], upc := 3 }
  | 3 => logs (.delay 200) s
  | _ => ends s

/-- Nothing but the trace, the micro-pc, the lines and the acceptance and `FINISH` fields may differ:
the registers a program reads, the buffers, the enable, the pending interrupt and the surroundings. -/
def sameRegisters (s t : State) : Prop :=
  t.rxdata = s.rxdata ∧ t.sample = s.sample ∧ t.idNibble = s.idNibble ∧ t.rxBuf = s.rxBuf
    ∧ t.tx2Buf = s.tx2Buf

/-- What no instruction writes: `CTRL`, the pending interrupt, and the model's surroundings. -/
def sameSurroundings (s t : State) : Prop :=
  t.cirqEn = s.cirqEn ∧ t.irqPending = s.irqPending ∧ t.script = s.script ∧ t.tick = s.tick
    ∧ t.hostOut = s.hostOut

/-- What a frame of the primary bus does not touch: `SEL2` and the secondary transfer (10_state.md R46,
R60). -/
def sameSecondary (s t : State) : Prop := t.sel2 = s.sel2 ∧ t.x2Idx = s.x2Idx ∧ t.x2Busy = s.x2Busy

/-- The draws on which an exchange goes on without an error (40_bus_transaction.md R176). -/
def sentBy (d : Draw) : Prop := d.grant = true ∧ d.xerr = false

/-- The draws on which a `GATE` passes (R178, R179). -/
def readyIn (d : Draw) : Prop := d.drdy = .low ∧ d.expire = false

/-- A state in which `Seq` has the turn with draws `d` while command `c` runs. -/
def runs (c : Cmd) (d : Draw) (s : State) : Prop := s.cur = some c ∧ s.input = .seq d

/-- The fields the spec gives the machine (10_state.md R72); the model's own are blanked (log entries 1,
12). -/
def blockOf (s : State) : State := { s with script := [], tick := 0, hostOut := none }

/-- The step answers a next state whose block is that of `t`. -/
def stepsTo (s t : State) : Prop := ∃ u, step s = .next u ∧ blockOf u = blockOf t

/-- A Seq turn with calm draws whose received byte is `m`. -/
def calmTurn (m : Byte) : Input :=
  .seq { grant := true, miso := m, xerr := false, drdy := .low, accept := true, expire := false }

/-! ## Schedules and events of a push -/

/-- Turns with the handler's own at place `k` among them (44_forwarding.md R303). -/
def handlerAt (k : Nat) (turns : List Input) : List Input := turns.take k ++ .irq :: turns.drop k

/-- Events by turn, with the handler's own at place `k`. -/
def handlerEventAt (k : Nat) (events : List (List Event)) : List Event :=
  (events.take k).flatten ++ .sel2 .deasserted .irq :: (events.drop k).flatten

/-- A byte clocked out of an armed transfer (R299). -/
def isPushed : Event → Bool
  | .x2 _ false => true
  | _ => false

/-- A deassert of `SEL2` by either agent. -/
def isRelease : Event → Bool
  | .sel2 .deasserted _ => true
  | _ => false

/-- The number of an error code, as the table of 60_exceptions.md R340 has it. -/
def codeOf : ErrCode → Nat
  | .errNone => 0
  | .errIllegalOp => 1
  | .errBadOperand => 2
  | .errBusy => 3
  | .errNotIdentified => 4
  | .errHalted => 5
  | .errAlreadyIdentified => 6
  | .errIdMismatch => 7
  | .errUnresponsive => 8
  | .errXfer => 9

end Sys2Proof.Statements

open Sys2Proof Sys2Proof.Machine Sys2Proof.Statements

/-! ## Encodings -/

/-- Words written out from 30_encoding.md R132 and R134 decode to the instructions they stand for; one of
each family, and one illegal and one with a reserved bit (95_test_vectors.md 2.1). -/
def Obligations.SpecWordsDecode : Prop :=
  decodeTableWord 32 0x00000000 = some .nop ∧
  decodeTableWord 32 0x1F000000 = some (.rreg 15) ∧
  decodeTableWord 32 0x2A0000FF = some (.wreg 10 0xFF) ∧
  decodeTableWord 32 0x30000015 = some (.opcode 0x15) ∧
  decodeTableWord 32 0x300000FC = some .sync ∧
  decodeTableWord 32 0x50000000 = some .identify ∧
  decodeTableWord 32 0x70000000 = some (.acquire 0) ∧
  decodeTableWord 32 0x80123456 = some (.forward 0x123456) ∧
  decodeTableWord 32 0xA00003E8 = some (.wait 1000) ∧
  decodeTableWord 32 0x2A000100 = none ∧
  decodeTableWord 32 0xB0000000 = none ∧
  decodeTableWord 8 0x13 = some (.wireRreg 3) ∧
  decodeTableWord 8 0x5F = some (.wireWreg 15) ∧
  decodeTableWord 8 0xFC = some .wireSync ∧
  decodeTableWord 8 0x02 = none

/-- Decoding an encoded well-formed instruction gives it back, every operand at every value; the word of
`OPCODE 0xFC` or `OPCODE 0x00` is given under its table name `SYNC` or `WAKEUP` (30_encoding.md R144). -/
def Obligations.DecodeOfEncodeGivesInstruction : Prop :=
  ∀ i : Instr, i.wellFormed = true →
    decodeTableWord (encode i).1 (encode i).2 =
      some (match i with
        | .opcode b => if b = 0xFC then .sync else if b = 0x00 then .wakeup else .opcode b
        | j => j)

/-- Encoding a decoded command gives back the word that was presented, for every word: no bit is ignored
(30_encoding.md R135). -/
def Obligations.EncodeOfDecodeGivesWord : Prop :=
  ∀ (w : Word) (c : Cmd), decodeCmd w = .ok c → encodeCmd c = w

/-- 30_encoding.md R140: every word with `OP` 0xB to 0xF, presented to an idle block, is rejected with
`ERR_ILLEGAL_OP` and has no other effect. -/
def Obligations.IllegalOpIsRejected : Prop :=
  ∀ (s : State) (w : Word), s.input = .hostWrite 0 4 w → s.busy = false →
    0xB0000000 ≤ w.toNat → stepsTo s (rejected w .errIllegalOp s)

/-- 30_encoding.md R135: a word whose `OP` selects a row of R134 but which fails that row's mask test,
presented to an idle block, is rejected with `ERR_BAD_OPERAND`. -/
def Obligations.ReservedBitIsRejected : Prop :=
  ∀ (s : State) (w m k : Word),
    (m, k) ∈ ([(0x00000000, 0xFFFFFFFF), (0x10000000, 0xF0FFFFFF), (0x20000000, 0xF0FFFF00),
      (0x30000000, 0xFFFFFF00), (0x40000000, 0xFFFFFFFF), (0x50000000, 0xFFFFFFFF),
      (0x60000000, 0xFFFFFFFF), (0x70000000, 0xFFFFFFF0), (0x80000000, 0xFF000000),
      (0x90000000, 0xFFFFFFFF), (0xA0000000, 0xFF000000)] : List (Word × Word)) →
    w &&& 0xF0000000 = m → w &&& k ≠ m →
    s.input = .hostWrite 0 4 w → s.busy = false →
      stepsTo s (rejected w .errBadOperand s)

/-- 30_encoding.md R137, R139: with its reserved bits zero, an `ACQUIRE` word decodes to its channel below
`NUM_CHANNELS` and is in error otherwise; channel 0 is always below it. -/
def Obligations.ChannelRangeIsChecked : Prop :=
  (∀ ch : Nibble,
    decodeCmd (0x70000000 ||| ch.zeroExtend 32) =
      if ch.toNat < Config.numChannels then .ok (.acquire ch) else .error .errBadOperand) ∧
  1 ≤ Config.numChannels ∧ Config.numChannels ≤ 16

/-! ## The step -/

/-- A step runs the decoded instruction. A word written to `CMD` of an idle block that decodes to `i` (which
is then well-formed) runs `exec i`; a Seq turn runs the latched command, and at a frame's opcode byte that
is the same as running the wire opcode; then the step's input is used. The input is log entry 1, the two
parts of a command's meaning log entry 7, the names `SYNC` and `WAKEUP` log entry 8, and the wire opcode's
place log entry 9: the model's choices and readings. -/
def Obligations.StepRunsDecodedInstruction : Prop :=
  (∀ (s : State) (w : Word) (i : Instr), s.input = .hostWrite 0 4 w → s.busy = false →
    decodeWord w = .ok i →
      i.wellFormed = true ∧ step s = onNext State.advance (exec i s)) ∧
  (∀ (s : State) (d : Draw) (c : Cmd), s.input = .seq d → s.cur = some c →
      step s = onNext State.advance (exec (instrOf c) s)) ∧
  (∀ (s : State) (d : Draw) (c : Cmd) (b : Byte) (i : Instr), s.input = .seq d → s.cur = some c →
    0 < s.upc → (expand c)[s.upc - 1]? = some .csa → nextMicroOp s = some (.xchg b .discard) →
    decodeWire b = some i →
      step s = onNext State.advance (exec i s))

/-- 40_bus_transaction.md R170 gives `Seq` no step while `S.cur = none`. The model answers a step that changes
nothing of the block: log entry 6, the model's choice. -/
def Obligations.IdleSequencerTurnChangesNothing : Prop :=
  ∀ (s : State) (d : Draw), s.input = .seq d → s.cur = none → stepsTo s s

/-! ## Acceptance and rejection -/

/-- 60_exceptions.md R342, R344: the gate table, for every instruction of the host layer presented to an idle
block. Where the table says Ok, `exec` answers the state in which the command is latched; elsewhere, the
rejection with the table's code. -/
def Obligations.AcceptanceFollowsGate : Prop :=
  ∀ (s : State) (i : Instr) (c : Cmd) (off : Int) (n : Nat) (w : Word),
    commandOf i = some c → s.input = .hostWrite off n w → s.busy = false →
      ((c = .nop ∨
        (s.idst ≠ .halted ∧ (c = .resetPulse ∨ ∃ k, c = .wait k)) ∨
        (s.idst = .unchecked ∧ c = .identify) ∨
        (s.idst = .ok ∧ c ≠ .identify)) →
        exec i s = .next { s with
          cur := some c, upc := 0, busy := true, err := .errNone
          trace := s.trace ++ [.accept w] }) ∧
      (s.idst = .halted → c ≠ .nop → exec i s = .next (rejected w .errHalted s)) ∧
      (s.idst = .ok → c = .identify → exec i s = .next (rejected w .errAlreadyIdentified s)) ∧
      (s.idst = .unchecked → c ≠ .nop → c ≠ .resetPulse → c ≠ .identify → (∀ k, c ≠ .wait k) →
        exec i s = .next (rejected w .errNotIdentified s))

/-- 60_exceptions.md R343: a word written while `BUSY` = 1 is rejected with `ERR_BUSY`, whatever it is, and
nothing of the running command changes. -/
def Obligations.BusyWriteIsRejected : Prop :=
  ∀ (s : State) (w : Word), s.input = .hostWrite 0 4 w → s.busy = true →
    stepsTo s (rejected w .errBusy s)

/-! ## What each command does, micro-operation by micro-operation -/

/-- 45_control.md R320: a running `NOP` finishes in its one step. -/
def Obligations.NopFinishes : Prop :=
  ∀ (s : State) (d : Draw), runs .nop d s → s.upc = 0 → exec .nop s = .next (ends s)

/-- 45_control.md R323: a running `WAIT n` emits `Delay(n)` and finishes. -/
def Obligations.WaitDelaysThenFinishes : Prop :=
  ∀ (s : State) (d : Draw) (n : Sample), runs (.wait n) d s → s.upc < 2 →
    exec (.wait n) s =
      .next (if s.upc = 0 then logs (.delay n.toNat) s else ends s)

/-- 45_control.md R326, R327. -/
def Obligations.ResetPulseSteps : Prop :=
  ∀ (s : State) (d : Draw), runs .resetPulse d s → s.upc < 5 →
    exec .resetPulse s = .next (afterResetPulse s)

/-- 41_register_access.md R200: each step of `RREG a`; a draw matters only at the `GATE` and the exchanges
that read it. -/
def Obligations.RregSteps : Prop :=
  ∀ (s : State) (d : Draw) (a : Nibble), runs (.rreg a) d s → s.upc < 11 →
    (s.upc = 0 → readyIn d) → (3 ≤ s.upc → s.upc ≤ 6 → sentBy d) →
      exec (.rreg a) s = .next (afterRreg a d s)

/-- 41_register_access.md R205, R206: each step of `WREG a, v`; only its three exchanges read a draw, and
none reads `DRDY`. -/
def Obligations.WregSteps : Prop :=
  ∀ (s : State) (d : Draw) (a : Nibble) (v : Byte), runs (.wreg a v) d s → s.upc < 6 →
    (1 ≤ s.upc → s.upc ≤ 3 → sentBy d) →
      exec (.wreg a v) s = .next (afterWreg a v d s)

/-- 41_register_access.md R209, R210; 30_encoding.md R144: each step of `OPCODE b`, and of `SYNC` and
`WAKEUP` as the `OPCODE` they stand for; only its exchange reads a draw. -/
def Obligations.OpcodeSteps : Prop :=
  ∀ (s : State) (d : Draw) (b : Byte), runs (.opcode b) d s → s.upc < 4 →
    (s.upc = 1 → sentBy d) →
      exec (.opcode b) s = .next (afterOpcode b d s) ∧
      (b = 0xFC → exec .sync s = .next (afterOpcode 0xFC d s)) ∧
      (b = 0x00 → exec .wakeup s = .next (afterOpcode 0x00 d s))

/-- 42_identification.md R230 to R233: each step of `IDENTIFY`; a draw matters only at the two `GATE`s, the
exchanges and the banner. -/
def Obligations.IdentifySteps : Prop :=
  ∀ (s : State) (d : Draw), runs .identify d s → s.upc < 15 →
    (s.upc ≤ 1 → readyIn d) → (4 ≤ s.upc → s.upc ≤ 7 → sentBy d) →
    (s.upc = 12 → d.accept = true) →
      exec .identify s = .next (afterIdentify d s)

/-- 43_conversion.md R250: each step of `CONFIGURE`; a draw matters only at the `GATE` and the exchanges. -/
def Obligations.ConfigureSteps : Prop :=
  ∀ (s : State) (d : Draw), runs .configure d s → s.upc < 11 →
    (s.upc = 0 → readyIn d) → (2 ≤ s.upc → s.upc ≤ 7 → sentBy d) →
      exec .configure s = .next (afterConfigure d s)

/-- 43_conversion.md R255, R257: each step of `RDATA`; a draw matters only at the `GATE` and the
exchanges. -/
def Obligations.RdataSteps : Prop :=
  ∀ (s : State) (d : Draw), runs .rdata d s → s.upc < 12 →
    (s.upc = 1 → readyIn d) → (4 ≤ s.upc → s.upc ≤ 7 → sentBy d) →
      exec .rdata s = .next (afterRdata d s)

/-- 43_conversion.md R272, 70_reset_and_hazards.md R402: each step of `ACQUIRE ch`; a draw matters only at
the one `GATE`, the exchanges, the poll and the report. At `IRQWAIT` no interrupt is pending, and at `POLL2`
the transfer is complete. -/
def Obligations.AcquireSteps : Prop :=
  ∀ (s : State) (d : Draw) (ch : Nibble), runs (.acquire ch) d s → s.upc < 29 →
    (s.upc ∈ [1, 2, 3, 6, 9, 15, 16, 17, 18] → sentBy d) → (s.upc = 12 → readyIn d) →
    (s.upc = 22 → s.irqPending = false) → (s.upc = 25 → s.x2Busy = false ∧ d.expire = false) →
    (s.upc = 27 → d.accept = true) →
      exec (.acquire ch) s = .next (afterAcquire ch d s)

/-- 44_forwarding.md R290 to R297: each step of `FORWARD v`; no draw matters but the timeout's at `POLL2`.
At `IRQWAIT` no interrupt is pending, and at `POLL2` the transfer is complete. -/
def Obligations.ForwardSteps : Prop :=
  ∀ (s : State) (d : Draw) (v : Sample), runs (.forward v) d s → s.upc < 6 →
    (s.upc = 0 → s.irqPending = false) → (s.upc = 3 → s.x2Busy = false ∧ d.expire = false) →
      exec (.forward v) s = .next (afterForward v s)

/-- 30_encoding.md R131, R132: each wire opcode sends its byte in one exchange, granted and without
error. -/
def Obligations.WireOpcodesSendTheirByte : Prop :=
  ∀ (s : State) (d : Draw), s.input = .seq d → d.grant = true → d.xerr = false →
    (∀ a : Nibble, exec (.wireRreg a) s = .next (sends (0x10 + a.zeroExtend 8) d s)) ∧
    (∀ a : Nibble, exec (.wireWreg a) s = .next (sends (0x50 + a.zeroExtend 8) d s)) ∧
    exec .wireSync s = .next (sends 0xFC d s) ∧
    exec .wireWakeup s = .next (sends 0x00 d s) ∧
    exec .wireRdata s = .next (sends 0x01 d s)

/-! ## Holds, timeouts and errors -/

/-- A held micro-operation changes nothing: an ungranted exchange (40_bus_transaction.md R176, R190), a
`GATE` that finds `DRDY` high (R178), a `TELE` the sink does not accept (R184), an `IRQWAIT` with an
interrupt pending and a `POLL2` with the transfer armed (44_forwarding.md R292, R295). -/
def Obligations.HeldStepChangesNothing : Prop :=
  ∀ (s : State) (d : Draw) (c : Cmd) (op : MicroOp), runs c d s → nextMicroOp s = some op →
    ((∃ b dst, op = .xchg b dst) ∧ d.grant = false ∨
      op = .gate ∧ d.drdy = .high ∧ (d.expire = false ∨ Config.readyTimeout = none) ∨
      ((∃ e, op = .tele e) ∨ op = .teleBanner) ∧ d.accept = false ∨
      op = .irqwait ∧ s.irqPending = true ∨
      op = .poll2 ∧ s.x2Busy = true ∧ (d.expire = false ∨ Config.xfer2Timeout = none)) →
      exec (instrOf c) s = .next s

/-- 40_bus_transaction.md R178, R179 and 60_exceptions.md R350: every `GATE` step. Where `READY_TIMEOUT` is
set and the schedule takes the timeout step, it aborts with `ERR_UNRESPONSIVE`, whatever `DRDY` is, and state
OK becomes UNCHECKED; no line is asserted at a `GATE`, so none is released (R348). Else it passes when `DRDY`
is low and holds when it is high. That a hold is a step that changes nothing is log entry 6, and that a draw
takes the timeout step log entry 16, the model's choices. -/
def Obligations.GateStep : Prop :=
  ∀ (s : State) (d : Draw) (c : Cmd), Inv s → runs c d s → nextMicroOp s = some .gate →
    exec (instrOf c) s = .next
      (if d.expire = true ∧ Config.readyTimeout ≠ none then { s with
          err := .errUnresponsive, busy := false, cur := none, upc := 0
          idst := if s.idst = .ok then .unchecked else s.idst
          trace := s.trace ++ [.abort .errUnresponsive] }
       else if d.drdy = .low then passes s
       else s)

/-- 44_forwarding.md R295, R296 and 60_exceptions.md R348, R350: every `POLL2` step. Where `XFER2_TIMEOUT` is
set and the schedule takes the timeout step, it disarms an armed transfer, deasserts an asserted `SEL2`, and
aborts with `ERR_UNRESPONSIVE`, the identity state unchanged. Else it passes once the transfer is complete
and holds before. The hold is log entry 6 and the timeout's draw log entry 16, the model's choices. -/
def Obligations.SecondaryPollStep : Prop :=
  ∀ (s : State) (d : Draw) (c : Cmd), Inv s → runs c d s → nextMicroOp s = some .poll2 →
    exec (instrOf c) s = .next
      (if d.expire = true ∧ Config.xfer2Timeout ≠ none then { s with
          x2Busy := false, x2Idx := if s.x2Busy = true then 0 else s.x2Idx, sel2 := .deasserted
          err := .errUnresponsive, busy := false, cur := none, upc := 0
          trace := s.trace ++ (if s.x2Busy = true then [.disarm2] else [])
            ++ (if s.sel2 = .asserted then [.sel2 .deasserted .seq] else [])
            ++ [.abort .errUnresponsive] }
       else if s.x2Busy = true then s
       else passes s)

/-- 40_bus_transaction.md R176, R177 and 60_exceptions.md R348, R349: every `XCHG` step. Ungranted, it holds.
Granted, the exchange is recorded with its flag and its byte kept where the position keeps one. With
`CHECK_XFER_ERR` and the flag it then deasserts `CS1`, counts the failure, halts the block at the limit, and
ends the command with `ERR_XFER`; without, the flag has no other effect. That a hold is a step that changes
nothing is log entry 6, the model's choice. -/
def Obligations.ExchangeStep : Prop :=
  ∀ (s : State) (d : Draw) (c : Cmd) (b : Byte) (dst : Dst), Inv s → runs c d s →
    nextMicroOp s = some (.xchg b dst) →
      exec (instrOf c) s = .next
        (if d.grant = false then s
         else if d.xerr = true ∧ Config.checkXferErr = true then { s with
            rxBuf := keptBytes dst d.miso s.rxBuf
            cs1 := .deasserted
            err := .errXfer, busy := false, cur := none, upc := 0
            failCount := s.failCount + 1
            idst := (match Config.maxConsecFail with
              | some n => if n ≤ s.failCount + 1 then .halted else s.idst
              | none => s.idst)
            trace := s.trace ++ [.x1 b d.miso true, .cs1 .deasserted, .abort .errXfer] }
         else { s with
            rxBuf := keptBytes dst d.miso s.rxBuf, upc := s.upc + 1
            trace := s.trace ++ [.x1 b d.miso d.xerr] })

/-- 60_exceptions.md R347: what a step other than a block reset adds to the trace holds an `Abort` only when
that step is `Seq`'s: its timeout step at a `GATE` or a `POLL2`, or its granted `XCHG` with the error flag,
and only where that one's parameter is set; so none with the defaults. -/
def Obligations.AbortCauses : Prop :=
  ∀ s t : State, s.input ≠ .blockReset → step s = .next t →
    ∃ es, t.trace = s.trace ++ es ∧
      (∀ e, .abort e ∈ es → ∃ d, s.input = .seq d ∧
        ((nextMicroOp s = some .gate ∧ d.expire = true ∧ Config.readyTimeout ≠ none
            ∧ e = .errUnresponsive) ∨
         (nextMicroOp s = some .poll2 ∧ d.expire = true ∧ Config.xfer2Timeout ≠ none
            ∧ e = .errUnresponsive) ∨
         (∃ b dst, nextMicroOp s = some (.xchg b dst) ∧ d.grant = true ∧ d.xerr = true
            ∧ Config.checkXferErr = true ∧ e = .errXfer))) ∧
      (DefaultParameters → ∀ e, .abort e ∉ es)

/-! ## The completion interrupt and the responder -/

/-- 60_exceptions.md R352: the handler step, whatever `CIRQ_EN` is. That an `Irq` turn without a pending
interrupt is a step that changes nothing is log entry 6, the model's choice. -/
def Obligations.HandlerDeassertsSelect : Prop :=
  ∀ s : State, s.input = .irq →
    stepsTo s (if s.irqPending = true then
        { s with sel2 := .deasserted, irqPending := false
                 trace := s.trace ++ [.sel2 .deasserted .irq] }
      else s)

/-- 44_forwarding.md R299, R300: every clock of `Remote`. With the transfer armed it carries the next armed
byte; the third one completes the transfer, and sets the pending interrupt when `CIRQ_EN` is 1. With nothing
armed it returns any byte, marked stray, and changes nothing else. -/
def Obligations.RemoteClockStep : Prop :=
  ∀ (s : State) (r : Byte), s.input = .remote r →
    (s.x2Busy = true →
      (s.x2Idx = 0 → stepsTo s { s with
          x2Idx := 1, trace := s.trace ++ [.x2 s.tx2Buf.b0 false] }) ∧
      (s.x2Idx = 1 → stepsTo s { s with
          x2Idx := 2, trace := s.trace ++ [.x2 s.tx2Buf.b1 false] }) ∧
      (s.x2Idx = 2 → stepsTo s { s with
          x2Idx := 3, x2Busy := false
          irqPending := if s.cirqEn = true then true else s.irqPending
          trace := s.trace ++ [.x2 s.tx2Buf.b2 false, .done2] })) ∧
    (s.x2Busy = false → stepsTo s { s with trace := s.trace ++ [.x2 r true] })

/-- 44_forwarding.md R303: at `SELD` of `FORWARD` or `ACQUIRE` with the completion pending, the handler may run
before `SELD`, right after it, or at any place up to after `FINISH`. Every place ends in the same state with
`SEL2` deasserted and no error, and with one deassert of each agent in the trace. -/
def Obligations.DeassertOrdersAgree : Prop :=
  (∀ (s : State) (v : Sample) (d0 d1 : Draw) (k : Nat) (rest : List Input),
    s.cur = some (.forward v) → s.upc = 4 → s.irqPending = true → k ≤ 2 →
      Host.Core.run core 3
          { s with script := handlerAt k [.seq d0, .seq d1] ++ rest } = .next { s with
        script := rest, tick := s.tick + 3, sel2 := .deasserted, irqPending := false
        busy := false, cur := none, upc := 0, failCount := 0
        trace := s.trace ++ handlerEventAt k [[.sel2 .deasserted .seq], [.finish]] }) ∧
  (∀ (s : State) (ch : Nibble) (d0 d1 d2 : Draw) (k : Nat) (rest : List Input),
    s.cur = some (.acquire ch) → s.upc = 26 → s.irqPending = true → d1.accept = true → k ≤ 3 →
      Host.Core.run core 4
          { s with script := handlerAt k [.seq d0, .seq d1, .seq d2] ++ rest } = .next { s with
        script := rest, tick := s.tick + 4, sel2 := .deasserted, irqPending := false
        busy := false, cur := none, upc := 0, failCount := 0
        trace := s.trace ++ handlerEventAt k
          [[.sel2 .deasserted .seq], [.tele (.sampleOut s.sample)], [.finish]] })

/-! ## Whole commands, from the write of their word to `Finish` -/

/-- 41_register_access.md R200, R201: `RREG a` on an idle block in state OK leaves the fourth received byte
in `RXDATA`, and its frame, `Delay(100)` and `Finish` in the trace. -/
def Obligations.RregRunReadsFourthByte : Prop :=
  ∀ (s : State) (a : Nibble) (g m0 m1 m2 m3 : Byte) (rest : List Input),
    s.busy = false → s.idst = .ok →
    s.script = .hostWrite 0 4 (encodeCmd (.rreg a)) ::
      ([g, g, g, m0, m1, m2, m3, g, g, g, g].map calmTurn ++ rest) →
      Host.Core.run core 12 s = .next { s with
        script := rest, tick := s.tick + 12
        rxBuf := ⟨m3, 0x00, 0x00⟩, rxdata := m3, cs1 := .deasserted
        err := .errNone, failCount := 0, cur := none, upc := 0
        trace := s.trace ++ [.accept (encodeCmd (.rreg a)), .cs1 .asserted,
          .x1 (0x10 + a.zeroExtend 8) m0 false, .x1 0x00 m1 false, .x1 0xFF m2 false,
          .x1 Config.rxFill m3 false, .cs1 .deasserted, .delay 100, .finish] }

/-- 42_identification.md R230, R236, R238: on every idle block in state UNCHECKED, after reset or after an
abort, `IDENTIFY` with status byte `t` ends in OK without error when `t`'s top nibble is 3, and else in HALTED
with `ERR_ID_MISMATCH`; the low nibble does not matter. -/
def Obligations.IdentifyRunSettlesIdentity : Prop :=
  ∀ (s : State) (g m0 m1 m2 t : Byte) (rest : List Input),
    s.busy = false → s.idst = .unchecked →
    s.script = .hostWrite 0 4 0x50000000 ::
      ([g, g, g, g, m0, m1, m2, t, g, g, g, g, g, g, g].map calmTurn ++ rest) →
      Host.Core.run core 16 s = .next { s with
        script := rest, tick := s.tick + 16
        rxBuf := ⟨t, 0x00, 0x00⟩, rxdata := t, cs1 := .deasserted
        idNibble := BitVec.ofNat 4 (t.toNat / 16)
        idst := if t.toNat / 16 = 3 then .ok else .halted
        err := if t.toNat / 16 = 3 then .errNone else .errIdMismatch
        failCount := 0, cur := none, upc := 0
        trace := s.trace ++ [.accept 0x50000000, .cs1 .asserted,
          .x1 (0x10 + Config.statusAddr.zeroExtend 8) m0 false, .x1 0x00 m1 false,
          .x1 0xFF m2 false, .x1 Config.rxFill t false, .cs1 .deasserted, .delay 100,
          .tele (.banner (decide (t.toNat / 16 = 3))), .finish] }

/-- 44_forwarding.md R301, R303, R304, R305: `FORWARD v` on an idle block in state OK pushes exactly the three
bytes of `v`, most significant first, inside one assertion of `SEL2`. With `CIRQ_EN` = 1 the handler may run
at any place `k` after the third byte: before the poll, before `SELD`, before or after `FINISH`. With
`CIRQ_EN` = 0 there is no completion interrupt and one deassert. -/
def Obligations.ForwardRunPushesThreeBytes : Prop :=
  ∀ (s : State) (v : Sample) (d : Draw) (r0 r1 r2 : Byte) (k : Nat) (rest : List Input),
    s.busy = false → s.idst = .ok → s.irqPending = false → d.expire = false → k ≤ 3 →
      (s.cirqEn = true →
        Host.Core.run core 11 { s with
            script := .hostWrite 0 4 (encodeCmd (.forward v)) ::
              ([.seq d, .seq d, .seq d, .remote r0, .remote r1, .remote r2]
                ++ handlerAt k [.seq d, .seq d, .seq d] ++ rest) } = .next { s with
          script := rest, tick := s.tick + 11
          tx2Buf := ⟨sampleByte v 16, sampleByte v 8, sampleByte v 0⟩, x2Idx := 3, x2Busy := false
          sel2 := .deasserted, err := .errNone, failCount := 0, cur := none, upc := 0
          trace := s.trace ++ [.accept (encodeCmd (.forward v)), .sel2 .asserted .seq,
            .arm2 (sampleByte v 16) (sampleByte v 8) (sampleByte v 0),
            .x2 (sampleByte v 16) false, .x2 (sampleByte v 8) false, .x2 (sampleByte v 0) false,
            .done2] ++ handlerEventAt k [[], [.sel2 .deasserted .seq], [.finish]] }) ∧
      (s.cirqEn = false →
        Host.Core.run core 10 { s with
            script := .hostWrite 0 4 (encodeCmd (.forward v)) ::
              ([.seq d, .seq d, .seq d, .remote r0, .remote r1, .remote r2, .seq d, .seq d, .seq d]
                ++ rest) } = .next { s with
          script := rest, tick := s.tick + 10
          tx2Buf := ⟨sampleByte v 16, sampleByte v 8, sampleByte v 0⟩, x2Idx := 3, x2Busy := false
          sel2 := .deasserted, err := .errNone, failCount := 0, cur := none, upc := 0
          trace := s.trace ++ [.accept (encodeCmd (.forward v)), .sel2 .asserted .seq,
            .arm2 (sampleByte v 16) (sampleByte v 8) (sampleByte v 0),
            .x2 (sampleByte v 16) false, .x2 (sampleByte v 8) false, .x2 (sampleByte v 0) false,
            .done2, .sel2 .deasserted .seq, .finish] })

/-- The Seq turns of an acquisition up to its arming, with received bytes `b0 b1 b2`. -/
def acquireTurns (g b0 b1 b2 : Byte) : List Input :=
  (List.replicate 16 g ++ [b0, b1, b2] ++ List.replicate 6 g).map calmTurn

/-- The events of those turns (43_conversion.md R272), with the word's acceptance before and the three
pushed bytes after. -/
def acquireEvents (ch : Nibble) (g b0 b1 b2 : Byte) : List Event :=
  [.accept (encodeCmd (.acquire ch)),
    .cs1 .asserted, .x1 (0x50 + Config.muxAddr.zeroExtend 8) g false, .x1 0x00 g false,
    .x1 (Config.muxValue ch) g false, .cs1 .deasserted,
    .cs1 .asserted, .x1 0xFC g false, .cs1 .deasserted,
    .cs1 .asserted, .x1 0x00 g false, .cs1 .deasserted, .delay 1,
    .cs1 .asserted, .x1 0x01 g false, .x1 Config.rxFill b0 false,
    .x1 Config.rxFill b1 false, .x1 Config.rxFill b2 false, .cs1 .deasserted, .delay 10,
    .sel2 .asserted .seq, .arm2 b2 b1 b0, .x2 b2 false, .x2 b1 false, .x2 b0 false, .done2]

/-- 43_conversion.md R272 to R277: one acquisition cycle. With received bytes `b0 b1 b2` the sample is
`b2·65536 + b1·256 + b0`, the frames are mux-write, sync, wakeup and trigger-read in that order, the bytes
pushed are `b2 b1 b0`, and the sink is offered the sample. With `CIRQ_EN` = 1 the handler may run at any place
`k` after the third byte (44_forwarding.md R303); with `CIRQ_EN` = 0 there is no completion interrupt. -/
def Obligations.AcquireRunPerformsCycle : Prop :=
  ∀ (s : State) (ch : Nibble) (g b0 b1 b2 r : Byte) (k : Nat) (rest : List Input),
    s.busy = false → s.idst = .ok → s.irqPending = false →
    ch.toNat < Config.numChannels → k ≤ 4 →
      (s.cirqEn = true →
        Host.Core.run core 34 { s with
            script := .hostWrite 0 4 (encodeCmd (.acquire ch)) ::
              (acquireTurns g b0 b1 b2 ++ [.remote r, .remote r, .remote r]
                ++ handlerAt k ((List.replicate 4 g).map calmTurn) ++ rest) } = .next { s with
          script := rest, tick := s.tick + 34
          rxBuf := ⟨b0, b1, b2⟩, sample := BitVec.ofNat 24 (sumOf ⟨b0, b1, b2⟩)
          tx2Buf := ⟨b2, b1, b0⟩, x2Idx := 3, x2Busy := false
          cs1 := .deasserted, sel2 := .deasserted
          err := .errNone, failCount := 0, cur := none, upc := 0
          trace := s.trace ++ acquireEvents ch g b0 b1 b2 ++ handlerEventAt k
            [[], [.sel2 .deasserted .seq],
              [.tele (.sampleOut (BitVec.ofNat 24 (sumOf ⟨b0, b1, b2⟩)))], [.finish]] }) ∧
      (s.cirqEn = false →
        Host.Core.run core 33 { s with
            script := .hostWrite 0 4 (encodeCmd (.acquire ch)) ::
              (acquireTurns g b0 b1 b2 ++ [.remote r, .remote r, .remote r]
                ++ (List.replicate 4 g).map calmTurn ++ rest) } = .next { s with
          script := rest, tick := s.tick + 33
          rxBuf := ⟨b0, b1, b2⟩, sample := BitVec.ofNat 24 (sumOf ⟨b0, b1, b2⟩)
          tx2Buf := ⟨b2, b1, b0⟩, x2Idx := 3, x2Busy := false
          cs1 := .deasserted, sel2 := .deasserted
          err := .errNone, failCount := 0, cur := none, upc := 0
          trace := s.trace ++ acquireEvents ch g b0 b1 b2 ++ [.sel2 .deasserted .seq,
            .tele (.sampleOut (BitVec.ofNat 24 (sumOf ⟨b0, b1, b2⟩))), .finish] })

/-- 44_forwarding.md R301: on every schedule, all draws and whatever `CIRQ_EN` is, a `FORWARD` or `ACQUIRE`
that goes from any place before its `SELA` to its `FINISH`, without block reset or abort, pushes exactly the
three bytes of the value it arms, in order; all three come after its assert of `SEL2` and before the first
deassert that follows. The value is `FORWARD`'s operand, and for `ACQUIRE` the sample that it leaves in
`SAMPLE`. -/
def Obligations.PushCarriesThreeBytes : Prop :=
  ∀ (f : Nat → Input) (n : Nat) (s t : State) (c : Cmd) (v : Sample) (es : List Event),
    Inv s → s.cur = some c → .sela ∉ doneOps s →
    (c = .forward v ∨ (∃ ch, c = .acquire ch) ∧ t.sample = v) →
    (∀ j, j < n → f j ≠ .blockReset) → runOn f n s = .next t →
    t.trace = s.trace ++ es ++ [.finish] → .finish ∉ es → (∀ e, .abort e ∉ es) →
      ∃ before inside after agent,
        es = before ++ .sel2 .asserted .seq :: (inside ++ .sel2 .deasserted agent :: after) ∧
        .sel2 .asserted .seq ∉ before ∧ before.all (fun e => !isPushed e) = true ∧
        inside.all (fun e => !isRelease e) = true ∧
        inside.filter isPushed =
          [.x2 (sampleByte v 16) false, .x2 (sampleByte v 8) false, .x2 (sampleByte v 0) false] ∧
        after.all (fun e => !isPushed e) = true

/-! ## Reset -/

/-- 10_state.md R72: the value of every field of the block after reset. -/
def Obligations.ResetValues : Prop :=
  let s := State.reset
  s.cs1 = .deasserted ∧ s.rst = .deasserted ∧ s.sel2 = .deasserted ∧ s.busy = false ∧
  s.idst = .unchecked ∧ s.err = .errNone ∧ s.idNibble = 0 ∧ s.cirqEn = true ∧ s.rxdata = 0x00 ∧
  s.sample = 0x000000 ∧ s.rxBuf = ⟨0x00, 0x00, 0x00⟩ ∧ s.tx2Buf = ⟨0x00, 0x00, 0x00⟩ ∧
  s.x2Idx = 0 ∧ s.x2Busy = false ∧ s.irqPending = false ∧ s.failCount = 0 ∧ s.cur = none ∧
  s.upc = 0 ∧ s.trace = []

/-- 70_reset_and_hazards.md R380: a block reset, whatever the state, gives every field of R72 its reset
value in one step. -/
def Obligations.BlockResetStep : Prop := ∀ s : State, s.input = .blockReset → stepsTo s State.reset

/-! ## The host register window -/

/-- 20_memory.md R102, R112: a read of an admitted offset gives its word and changes no state of the
block. `STATUS` is given field by field from its least significant bit (10_state.md R49), `ERR` by the numbers
of 60_exceptions.md R340. That the word is left in the field `hostOut` is log entry 12, the model's choice. -/
def Obligations.HostReadGivesWord : Prop :=
  ∀ (s : State) (off : Int) (n : Nat) (drdy : Drdy),
    s.input = .hostRead off n drdy → admitted off n = true →
      ∃ w : Word, step s = .next (State.advance { s with hostOut := some w }) ∧
        (off = 0x04 →
          (w.getLsbD 0 = s.busy ∧
           (w.extractLsb' 1 2).toNat =
             (match s.idst with | .unchecked => 0 | .ok => 1 | .halted => 2) ∧
           w.getLsbD 3 = decide (s.sel2 = .asserted) ∧
           w.getLsbD 4 = decide (s.cs1 = .asserted) ∧
           w.getLsbD 5 = s.x2Busy ∧ w.getLsbD 6 = s.irqPending ∧
           w.getLsbD 7 = decide (s.rst = .asserted) ∧
           (w.extractLsb' 8 4).toNat = codeOf s.err ∧ w.extractLsb' 12 4 = s.idNibble ∧
           w.getLsbD 16 = decide (drdy = .low) ∧ w.extractLsb' 17 15 = 0)) ∧
        (off = 0x08 → w = if s.cirqEn = true then 1 else 0) ∧
        (off = 0x0C → w.toNat = s.rxdata.toNat) ∧
        (off = 0x10 → w.toNat = s.sample.toNat) ∧
        (off = 0x00 ∨ off = 0x14 ∨ off = 0x18 ∨ off = 0x1C → w = 0)

/-- 20_memory.md R104; 10_state.md R54, R57: a write to `CTRL` sets `CIRQ_EN` to bit 0, even while a
command runs, and a write to any other offset but `CMD`'s has no effect. -/
def Obligations.RegisterWriteEffects : Prop :=
  ∀ (s : State) (off : Int) (v : Word), s.input = .hostWrite off 4 v →
    (off = 0x08 → stepsTo s { s with cirqEn := v.getLsbD 0 }) ∧
    (off = 0x04 ∨ off = 0x0C ∨ off = 0x10 ∨ off = 0x14 ∨ off = 0x18 ∨ off = 0x1C → stepsTo s s)

/-- 20_memory.md R103: a host access narrower or wider than 32 bits, misaligned, or outside the window is
refused, and every other one is not. -/
def Obligations.OddHostAccessIsRefused : Prop :=
  ∀ (s : State) (off : Int) (n : Nat),
    ((∃ drdy, s.input = .hostRead off n drdy) ∨ ∃ v, s.input = .hostWrite off n v) →
      (step s = .refused (.hostAccess off n) ↔
        n ≠ 4 ∨ off % 4 ≠ 0 ∨ off < 0 ∨ 0x20 ≤ off)

/-! ## Invariants and whole-machine rules -/

/-- The invariant holds after reset. -/
def Obligations.InvariantHoldsAtReset : Prop := Inv State.reset

/-- Every step from a state that meets the invariant, whatever agent moves and whatever it draws, gives a
state that meets it. -/
def Obligations.StepKeepsInvariant : Prop :=
  ∀ s t : State, Inv s → step s = .next t → Inv t

/-- In a state that meets the invariant no step faults. -/
def Obligations.InvariantExcludesFaults : Prop :=
  ∀ (s : State) (r : Fault), Inv s → step s ≠ .fault r

/-- 40_bus_transaction.md R181: in every state a run from reset reaches, on every schedule and all draws,
`CS1` is asserted exactly between a `CSA` and its `CSD` of the running command, so not while `BUSY` = 0. -/
def Obligations.SelectFollowsFrame : Prop :=
  ∀ (n : Nat) (inputs : List Input) (t : State),
    Host.Core.run core n { State.reset with script := inputs } = .next t →
      (t.cs1 = .asserted ↔ csOpen (doneOps t) = true) ∧ (t.busy = false → t.cs1 = .deasserted)

/-- 44_forwarding.md R302: in every such state `SEL2` is asserted while a transfer is armed. -/
def Obligations.Sel2HeldWhileArmed : Prop :=
  ∀ (n : Nat) (inputs : List Input) (t : State),
    Host.Core.run core n { State.reset with script := inputs } = .next t →
      t.x2Busy = true → t.sel2 = .asserted

/-- 42_identification.md R234: once halted, until block reset. A step other than block reset from a halted
state that meets the invariant adds only quiet events to the trace, no `CS1`, `X1`, `RST` or `Tele` event and
no `SEL2` event of `Seq`, and its next state is again a halted one that meets the invariant. -/
def Obligations.HaltedBlockIsQuiet : Prop :=
  ∀ s t : State, Inv s → s.idst = .halted → s.input ≠ .blockReset → step s = .next t →
    (∃ es, t.trace = s.trace ++ es ∧ es.all quietEvent = true) ∧ Inv t ∧ t.idst = .halted

/-- 10_state.md R70: the trace is only appended to, except by block reset. -/
def Obligations.TraceOnlyGrows : Prop :=
  ∀ s t : State, s.input ≠ .blockReset → step s = .next t → ∃ es, t.trace = s.trace ++ es

/-- 42_identification.md R235: a block that meets the invariant leaves OK, but by block reset, only where a
timeout or the failure limit is set, so not with the default parameters; it leaves HALTED never. So
`IDENTIFY`, rejected in OK and in HALTED, completes once per reset. -/
def Obligations.IdentityIsSettledOnce : Prop :=
  ∀ s t : State, Inv s → s.input ≠ .blockReset → step s = .next t →
    (s.idst = .ok → t.idst = .ok ∨
      (t.idst = .unchecked ∧ t.err = .errUnresponsive ∧ Config.readyTimeout ≠ none) ∨
      (t.idst = .halted ∧ t.err = .errXfer ∧ Config.checkXferErr = true
        ∧ Config.maxConsecFail ≠ none)) ∧
    (s.idst = .ok → DefaultParameters → t.idst = .ok) ∧
    (s.idst = .halted → t.idst = .halted)

/-! ## Frames -/

/-- Frame of the commands that only write to the device: `WREG`, `OPCODE`, `SYNC`, `WAKEUP`, `CONFIGURE`
change no register a program reads, no buffer, not `RST`, not `CTRL`, whatever the draws; and from a state
that meets the invariant not `SEL2` nor the secondary transfer (10_state.md R46, R60). The line `CS1`, the
failure count and the status fields `BUSY`, `ERR`, `IDST` are theirs or their abort's to write. -/
def Obligations.DeviceWriteFrame : Prop :=
  ∀ (i : Instr) (s t : State),
    ((∃ a v, i = .wreg a v) ∨ (∃ b, i = .opcode b) ∨ i = .sync ∨ i = .wakeup ∨ i = .configure) →
    exec i s = .next t →
      sameRegisters s t ∧ sameSurroundings s t ∧ t.rst = s.rst ∧ (Inv s → sameSecondary s t)

/-- Frame of the reading commands: `RREG` leaves `SAMPLE` and `STATUS.ID`, `RDATA` leaves `RXDATA` and
`STATUS.ID`, `IDENTIFY` leaves `SAMPLE`; none writes `tx2_buf`, `RST` or the surroundings, nor, from a state
that meets the invariant, `SEL2` or the secondary transfer. -/
def Obligations.DeviceReadFrame : Prop :=
  ∀ (i : Instr) (s t : State),
    ((∃ a, i = .rreg a) ∨ i = .rdata ∨ i = .identify) → exec i s = .next t →
      sameSurroundings s t ∧ t.rst = s.rst ∧ t.tx2Buf = s.tx2Buf ∧
      (i ≠ .rdata → t.sample = s.sample) ∧
      (i ≠ .identify → t.idNibble = s.idNibble) ∧
      (i = .rdata → t.rxdata = s.rxdata) ∧
      (Inv s → sameSecondary s t)

/-- Frame of the control commands: `NOP`, `WAIT` and `RESET_PULSE` write no register, no buffer, not `CS1`,
`SEL2`, the transfer fields or `IDST` (45_control.md R328), and the first two not `RST`. -/
def Obligations.ControlFrame : Prop :=
  ∀ (i : Instr) (s t : State),
    (i = .nop ∨ (∃ n, i = .wait n) ∨ i = .resetPulse) → exec i s = .next t →
      sameRegisters s t ∧ sameSurroundings s t ∧ t.cs1 = s.cs1 ∧ t.sel2 = s.sel2 ∧
      t.x2Idx = s.x2Idx ∧ t.x2Busy = s.x2Busy ∧ t.idst = s.idst ∧
      (i ≠ .resetPulse → t.rst = s.rst)

/-- Frame of the push: `FORWARD` writes no primary-bus register or buffer, not `STATUS.ID`, `IDST`, `RST` or
the failure count but to 0, nor, from a state that meets the invariant, `CS1` (44_forwarding.md R304); and
`ACQUIRE` leaves `RXDATA`, `STATUS.ID` and `RST`. -/
def Obligations.PushFrame : Prop :=
  ∀ (i : Instr) (s t : State), exec i s = .next t →
    ((∃ v, i = .forward v) →
      sameSurroundings s t ∧ t.rxdata = s.rxdata ∧ t.sample = s.sample ∧ t.rxBuf = s.rxBuf ∧
      t.idNibble = s.idNibble ∧ t.idst = s.idst ∧ t.rst = s.rst ∧
      (t.failCount = s.failCount ∨ t.failCount = 0) ∧ (Inv s → t.cs1 = s.cs1)) ∧
    ((∃ ch, i = .acquire ch) →
      sameSurroundings s t ∧ t.rxdata = s.rxdata ∧ t.idNibble = s.idNibble ∧ t.rst = s.rst)

/-- Frame of the wire opcodes: an exchange writes no register, no buffer, not `RST` and not the
surroundings; and where the running command's micro-operation is an exchange, as it is wherever a step runs
a wire opcode, from a state that meets the invariant not `SEL2` nor the secondary transfer. That a wire
opcode's meaning is that exchange is log entry 9, the model's reading. -/
def Obligations.WireOpcodeFrame : Prop :=
  ∀ (i : Instr) (s t : State), commandOf i = none → exec i s = .next t →
    sameRegisters s t ∧ sameSurroundings s t ∧ t.rst = s.rst ∧
    (Inv s → (∃ b dst, nextMicroOp s = some (.xchg b dst)) → sameSecondary s t)

/-! ## Expansions, the host's program, completion -/

/-- 40_bus_transaction.md R171: every expansion ends with `FINISH`, holds it nowhere else, and has at most
29 micro-operations. -/
def Obligations.ExpansionsEndWithFinish : Prop :=
  ∀ c : Cmd, ∃ ops, expand c = ops ++ [.finish] ∧ .finish ∉ ops ∧ ops.length ≤ 28

/-- 40_bus_transaction.md R182: while a frame is open, the next micro-operation of every command is an
exchange or the closing `CSD`. -/
def Obligations.FramesHoldOnlyExchanges : Prop :=
  ∀ (c : Cmd) (k : Nat), csOpen ((expand c).take k) = true →
    (∃ b dst, (expand c)[k]? = some (.xchg b dst)) ∨ (expand c)[k]? = some .csd ∨
      (expand c).length ≤ k

/-- 70_reset_and_hazards.md R391, R392: from whatever place, the boot program comes to `CONFIGURE` only from
the status it reads after `IDENTIFY`, and only when that has `BUSY` = 0 and `IDST` = OK; there, with `BUSY` = 0
and another `IDST`, it asks for nothing more. The controller's form is log entry 20, the model's choice. -/
def Obligations.BootProgramStopsOnMismatch : Prop :=
  (∀ (b : Boot) (r : Word), (bootNext b r).phase = .configure → b.phase ≠ .configure →
    b = ⟨.identify, .pollAfter⟩ ∧ r.getLsbD 0 = false ∧ r.extractLsb' 1 2 = 1) ∧
  (∀ (r : Word) (drdy : Drdy), r.getLsbD 0 = false →
    (r.extractLsb' 1 2 = 1 →
      bootNext ⟨.identify, .pollAfter⟩ r = ⟨.configure, .pollBefore⟩) ∧
    (r.extractLsb' 1 2 ≠ 1 →
      bootRequest (bootNext ⟨.identify, .pollAfter⟩ r) drdy = none))

/-- Completion under the fairness assumptions `XPORT_FAIR` and `TELE_FAIR` (40_bus_transaction.md R184,
R190), a device that gets ready, a remote that clocks and a handler that runs: from every state that meets
the invariant, on every such stream of inputs without block reset, the running command ends. -/
def Obligations.FairRunsEndEveryCommand : Prop :=
  ∀ (f : Nat → Input) (s : State), Inv s → XportFair f → TeleFair f → DeviceFair f → PushFair f →
    Undisturbed f → ∃ n t, runOn f n s = .next t ∧ t.cur = none
end

