-- ==== Sys2Proof/Laws/Expand.lean ====
section
/-! SUPPORT. The shape of every expansion, position by position: what comes before and after each kind of
micro-operation, and which lines are held there. Claims about runs cite these instead of a listing. -/

namespace Sys2Proof.Machine

/-! ## One more micro-operation done -/

theorem take_succ_of_get {ops : List MicroOp} {k : Nat} {op : MicroOp} (h : ops[k]? = some op) :
    ops.take (k + 1) = ops.take k ++ [op] := by
  rw [List.take_add_one, h]; rfl

theorem csOpen_snoc (l : List MicroOp) (op : MicroOp) :
    csOpen (l ++ [op]) = (match op with | .csa => true | .csd => false | _ => csOpen l) := by
  cases op <;> simp [csOpen]

theorem rstOpen_snoc (l : List MicroOp) (op : MicroOp) :
    rstOpen (l ++ [op]) = (match op with | .rsta => true | .rstd => false | _ => rstOpen l) := by
  cases op <;> simp [rstOpen]

theorem selOpen_snoc (l : List MicroOp) (op : MicroOp) :
    selOpen (l ++ [op]) = (match op with | .sela => true | .seld => false | _ => selOpen l) := by
  cases op <;> simp [selOpen]

/-! ## The shape of every expansion -/

/-- What holds at index `k` of an expansion that has `op` there. -/
structure OpShape (c : Cmd) (ops : List MicroOp) (k : Nat) (op : MicroOp) : Prop where
  /-- `FINISH` is the last and only the last (40_bus_transaction.md R171). -/
  finish_last : op = .finish ↔ k + 1 = ops.length
  /-- A frame holds only exchanges and its `CSD` (R182). -/
  frame_ops : csOpen (ops.take k) = true → (∃ b dst, op = .xchg b dst) ∨ op = .csd
  /-- Every exchange and every `CSD` is in a frame. -/
  in_frame : (∃ b dst, op = .xchg b dst) ∨ op = .csd → csOpen (ops.take k) = true
  /-- A reset pulse holds only its delay and its `RSTD`. -/
  pulse_ops : rstOpen (ops.take k) = true → (∃ n, op = .delay n) ∨ op = .rstd
  /-- A push holds only its arming, its poll and its `SELD`. -/
  push_ops : selOpen (ops.take k) = true → (∃ src, op = .arm2 src) ∨ op = .poll2 ∨ op = .seld
  /-- Every poll is in a push. -/
  in_push : op = .poll2 → selOpen (ops.take k) = true
  /-- `ARM2` is followed by `POLL2`. -/
  arm_then_poll : (∃ src, op = .arm2 src) → ops[k + 1]? = some .poll2
  /-- `SELA` follows `IRQWAIT`. -/
  wait_then_sela : ops[k + 1]? = some .sela → op = .irqwait
  /-- `ARM2` follows `SELA`. -/
  sela_then_arm : (∃ src, ops[k + 1]? = some (.arm2 src)) → op = .sela
  /-- `IDCHK` is `IDENTIFY`'s, before index 13. -/
  idchk_at : op = .idchk → c = .identify ∧ k = 11
  /-- `IDSET` is `IDENTIFY`'s, at index 13. -/
  idset_at : op = .idset ↔ c = .identify ∧ k = 13

/-- The index of a listing of known length, case by case. -/
theorem lt_length_of_get {ops : List MicroOp} {k : Nat} {op : MicroOp} (h : ops[k]? = some op) :
    k < ops.length := by
  by_contra hk
  rw [List.getElem?_eq_none (by omega)] at h
  cases h

theorem expand_first : ∀ c : Cmd, (expand c)[0]? ≠ some .sela ∧ ∀ src, (expand c)[0]? ≠ some (.arm2 src) := by
  intro c
  cases c <;> simp [expand, expandNop, expandRreg, expandWreg, expandOpcode, expandRdata, readDataOps,
    expandIdentify, expandConfigure, configureFrame, expandAcquire, expandForward, pushOps, wregFrame,
    expandResetPulse, expandWait, opcodeFrame, frame]

theorem expand_shape (c : Cmd) (k : Nat) (op : MicroOp) (h : (expand c)[k]? = some op) :
    OpShape c (expand c) k op := by
  have hk := lt_length_of_get h
  cases c <;>
    simp only [expand, expandNop, expandRreg, rregFrame, expandWreg, wregFrame, expandOpcode,
      opcodeFrame, expandRdata, readDataOps, rdataFrame, expandIdentify, expandConfigure,
      configureFrame, expandAcquire, expandForward, pushOps, expandResetPulse, expandWait, frame,
      List.cons_append, List.nil_append, List.map_cons, List.map_nil, List.take_zero, List.take_succ_cons,
      List.append_nil, List.length_cons, List.length_nil] at h hk ⊢ <;>
    interval_cases k <;>
    simp only [List.getElem?_cons_zero, List.getElem?_cons_succ, Option.some.injEq] at h <;>
    subst h <;>
    constructor <;> simp [csOpen, rstOpen, selOpen]

end Sys2Proof.Machine
end

