-- ==== Sys2Proof/Laws/Operands.lean ====
section
/-! SUPPORT. The fields of a packed word, the wire opcodes as sums, and the byte orders of a sample. -/

namespace Sys2Proof.Machine

/-! ## Fields of a packed word (30_encoding.md R133) -/

theorem opField_packFields (op a : Nibble) (o : Sample) : opField (packFields op a o) = op := by
  apply BitVec.eq_of_getLsbD_eq
  intro i hi
  interval_cases i <;> simp [opField, packFields]

theorem addrField_packFields (op a : Nibble) (o : Sample) : addrField (packFields op a o) = a := by
  apply BitVec.eq_of_getLsbD_eq
  intro i hi
  interval_cases i <;> simp [addrField, packFields]

theorem operandField_packFields (op a : Nibble) (o : Sample) :
    operandField (packFields op a o) = o := by
  apply BitVec.eq_of_getLsbD_eq
  intro i hi
  interval_cases i <;> simp [operandField, packFields]

theorem byteField_packFields (op a : Nibble) (o : Sample) :
    byteField (packFields op a o) = o.extractLsb' 0 8 := by
  apply BitVec.eq_of_getLsbD_eq
  intro i hi
  interval_cases i <;> simp [byteField, packFields]

theorem channelField_packFields (op a : Nibble) (o : Sample) :
    channelField (packFields op a o) = o.extractLsb' 0 4 := by
  apply BitVec.eq_of_getLsbD_eq
  intro i hi
  interval_cases i <;> simp [channelField, packFields]

/-- A word is its three fields. -/
theorem packFields_fields (w : Word) :
    packFields (opField w) (addrField w) (operandField w) = w := by
  apply BitVec.eq_of_getLsbD_eq
  intro i hi
  interval_cases i <;> simp [packFields, opField, addrField, operandField]

/-! ## Wire opcodes (30_encoding.md R131) -/

theorem readOpcode_eq_add : ∀ a : Nibble, readOpcode a = 0x10 + a.zeroExtend 8 := by decide

theorem writeOpcode_eq_add : ∀ a : Nibble, writeOpcode a = 0x50 + a.zeroExtend 8 := by decide

/-! ## Samples -/

/-- The first received byte is the least significant (43_conversion.md R257). -/
theorem decodeSample_toNat (b : Bytes3) :
    (decodeSample b).toNat = b.b2.toNat * 65536 + b.b1.toNat * 256 + b.b0.toNat := by
  have h0 := b.b0.isLt
  have h1 := b.b1.isLt
  simp only [decodeSample, BitVec.toNat_append]
  rw [← Nat.shiftLeft_add_eq_or_of_lt h1, ← Nat.shiftLeft_add_eq_or_of_lt h0]
  simp only [Nat.shiftLeft_eq]
  omega

/-- A pushed sample's bytes are the received ones in reverse (44_forwarding.md R304). -/
theorem splitSample_decodeSample (b : Bytes3) :
    splitSample (decodeSample b) = ⟨b.b2, b.b1, b.b0⟩ := by
  have h0 := b.b0.isLt
  have h1 := b.b1.isLt
  have h2 := b.b2.isLt
  simp only [splitSample, Bytes3.mk.injEq]
  refine ⟨?_, ?_, ?_⟩ <;> apply BitVec.eq_of_toNat_eq <;>
    simp only [BitVec.extractLsb'_toNat, decodeSample_toNat, Nat.shiftRight_eq_div_pow] <;> omega

end Sys2Proof.Machine
end

