-- ==== Sys2Proof/Laws/State.lean ====
section
/-! SUPPORT. One lemma per field for the updates every rule uses (the step's input used, an event
emitted, the micro-pc advanced), and for block reset. -/

namespace Sys2Proof.Machine

variable (s : State) (e : Event)

/-! ## `advance` -/

@[simp] theorem State.advance_cs1 : s.advance.cs1 = s.cs1 := rfl
@[simp] theorem State.advance_rst : s.advance.rst = s.rst := rfl
@[simp] theorem State.advance_sel2 : s.advance.sel2 = s.sel2 := rfl
@[simp] theorem State.advance_busy : s.advance.busy = s.busy := rfl
@[simp] theorem State.advance_idst : s.advance.idst = s.idst := rfl
@[simp] theorem State.advance_err : s.advance.err = s.err := rfl
@[simp] theorem State.advance_idNibble : s.advance.idNibble = s.idNibble := rfl
@[simp] theorem State.advance_cirqEn : s.advance.cirqEn = s.cirqEn := rfl
@[simp] theorem State.advance_rxdata : s.advance.rxdata = s.rxdata := rfl
@[simp] theorem State.advance_sample : s.advance.sample = s.sample := rfl
@[simp] theorem State.advance_rxBuf : s.advance.rxBuf = s.rxBuf := rfl
@[simp] theorem State.advance_tx2Buf : s.advance.tx2Buf = s.tx2Buf := rfl
@[simp] theorem State.advance_x2Idx : s.advance.x2Idx = s.x2Idx := rfl
@[simp] theorem State.advance_x2Busy : s.advance.x2Busy = s.x2Busy := rfl
@[simp] theorem State.advance_irqPending : s.advance.irqPending = s.irqPending := rfl
@[simp] theorem State.advance_failCount : s.advance.failCount = s.failCount := rfl
@[simp] theorem State.advance_cur : s.advance.cur = s.cur := rfl
@[simp] theorem State.advance_upc : s.advance.upc = s.upc := rfl
@[simp] theorem State.advance_trace : s.advance.trace = s.trace := rfl
@[simp] theorem State.advance_script : s.advance.script = s.script.tail := rfl
@[simp] theorem State.advance_tick : s.advance.tick = s.tick + 1 := rfl
@[simp] theorem State.advance_hostOut : s.advance.hostOut = s.hostOut := rfl

/-! ## `emit` -/

@[simp] theorem State.emit_cs1 : (s.emit e).cs1 = s.cs1 := rfl
@[simp] theorem State.emit_rst : (s.emit e).rst = s.rst := rfl
@[simp] theorem State.emit_sel2 : (s.emit e).sel2 = s.sel2 := rfl
@[simp] theorem State.emit_busy : (s.emit e).busy = s.busy := rfl
@[simp] theorem State.emit_idst : (s.emit e).idst = s.idst := rfl
@[simp] theorem State.emit_err : (s.emit e).err = s.err := rfl
@[simp] theorem State.emit_idNibble : (s.emit e).idNibble = s.idNibble := rfl
@[simp] theorem State.emit_cirqEn : (s.emit e).cirqEn = s.cirqEn := rfl
@[simp] theorem State.emit_rxdata : (s.emit e).rxdata = s.rxdata := rfl
@[simp] theorem State.emit_sample : (s.emit e).sample = s.sample := rfl
@[simp] theorem State.emit_rxBuf : (s.emit e).rxBuf = s.rxBuf := rfl
@[simp] theorem State.emit_tx2Buf : (s.emit e).tx2Buf = s.tx2Buf := rfl
@[simp] theorem State.emit_x2Idx : (s.emit e).x2Idx = s.x2Idx := rfl
@[simp] theorem State.emit_x2Busy : (s.emit e).x2Busy = s.x2Busy := rfl
@[simp] theorem State.emit_irqPending : (s.emit e).irqPending = s.irqPending := rfl
@[simp] theorem State.emit_failCount : (s.emit e).failCount = s.failCount := rfl
@[simp] theorem State.emit_cur : (s.emit e).cur = s.cur := rfl
@[simp] theorem State.emit_upc : (s.emit e).upc = s.upc := rfl
@[simp] theorem State.emit_trace : (s.emit e).trace = s.trace ++ [e] := rfl
@[simp] theorem State.emit_script : (s.emit e).script = s.script := rfl
@[simp] theorem State.emit_tick : (s.emit e).tick = s.tick := rfl
@[simp] theorem State.emit_hostOut : (s.emit e).hostOut = s.hostOut := rfl

/-! ## `nextOp` -/

@[simp] theorem State.nextOp_cs1 : s.nextOp.cs1 = s.cs1 := rfl
@[simp] theorem State.nextOp_rst : s.nextOp.rst = s.rst := rfl
@[simp] theorem State.nextOp_sel2 : s.nextOp.sel2 = s.sel2 := rfl
@[simp] theorem State.nextOp_busy : s.nextOp.busy = s.busy := rfl
@[simp] theorem State.nextOp_idst : s.nextOp.idst = s.idst := rfl
@[simp] theorem State.nextOp_err : s.nextOp.err = s.err := rfl
@[simp] theorem State.nextOp_idNibble : s.nextOp.idNibble = s.idNibble := rfl
@[simp] theorem State.nextOp_cirqEn : s.nextOp.cirqEn = s.cirqEn := rfl
@[simp] theorem State.nextOp_rxdata : s.nextOp.rxdata = s.rxdata := rfl
@[simp] theorem State.nextOp_sample : s.nextOp.sample = s.sample := rfl
@[simp] theorem State.nextOp_rxBuf : s.nextOp.rxBuf = s.rxBuf := rfl
@[simp] theorem State.nextOp_tx2Buf : s.nextOp.tx2Buf = s.tx2Buf := rfl
@[simp] theorem State.nextOp_x2Idx : s.nextOp.x2Idx = s.x2Idx := rfl
@[simp] theorem State.nextOp_x2Busy : s.nextOp.x2Busy = s.x2Busy := rfl
@[simp] theorem State.nextOp_irqPending : s.nextOp.irqPending = s.irqPending := rfl
@[simp] theorem State.nextOp_failCount : s.nextOp.failCount = s.failCount := rfl
@[simp] theorem State.nextOp_cur : s.nextOp.cur = s.cur := rfl
@[simp] theorem State.nextOp_upc : s.nextOp.upc = s.upc + 1 := rfl
@[simp] theorem State.nextOp_trace : s.nextOp.trace = s.trace := rfl
@[simp] theorem State.nextOp_script : s.nextOp.script = s.script := rfl
@[simp] theorem State.nextOp_tick : s.nextOp.tick = s.tick := rfl
@[simp] theorem State.nextOp_hostOut : s.nextOp.hostOut = s.hostOut := rfl

/-! ## `blockReset` -/

@[simp] theorem State.blockReset_cs1 : s.blockReset.cs1 = State.reset.cs1 := rfl
@[simp] theorem State.blockReset_rst : s.blockReset.rst = State.reset.rst := rfl
@[simp] theorem State.blockReset_sel2 : s.blockReset.sel2 = State.reset.sel2 := rfl
@[simp] theorem State.blockReset_busy : s.blockReset.busy = State.reset.busy := rfl
@[simp] theorem State.blockReset_idst : s.blockReset.idst = State.reset.idst := rfl
@[simp] theorem State.blockReset_err : s.blockReset.err = State.reset.err := rfl
@[simp] theorem State.blockReset_idNibble : s.blockReset.idNibble = State.reset.idNibble := rfl
@[simp] theorem State.blockReset_cirqEn : s.blockReset.cirqEn = State.reset.cirqEn := rfl
@[simp] theorem State.blockReset_rxdata : s.blockReset.rxdata = State.reset.rxdata := rfl
@[simp] theorem State.blockReset_sample : s.blockReset.sample = State.reset.sample := rfl
@[simp] theorem State.blockReset_rxBuf : s.blockReset.rxBuf = State.reset.rxBuf := rfl
@[simp] theorem State.blockReset_tx2Buf : s.blockReset.tx2Buf = State.reset.tx2Buf := rfl
@[simp] theorem State.blockReset_x2Idx : s.blockReset.x2Idx = State.reset.x2Idx := rfl
@[simp] theorem State.blockReset_x2Busy : s.blockReset.x2Busy = State.reset.x2Busy := rfl
@[simp] theorem State.blockReset_irqPending : s.blockReset.irqPending = State.reset.irqPending := rfl
@[simp] theorem State.blockReset_failCount : s.blockReset.failCount = State.reset.failCount := rfl
@[simp] theorem State.blockReset_cur : s.blockReset.cur = State.reset.cur := rfl
@[simp] theorem State.blockReset_upc : s.blockReset.upc = State.reset.upc := rfl
@[simp] theorem State.blockReset_trace : s.blockReset.trace = State.reset.trace := rfl
@[simp] theorem State.blockReset_script : s.blockReset.script = s.script := rfl
@[simp] theorem State.blockReset_tick : s.blockReset.tick = s.tick := rfl
@[simp] theorem State.blockReset_hostOut : s.blockReset.hostOut = s.hostOut := rfl

end Sys2Proof.Machine
end

