-- ==== Sys2Proof/Laws/Step.lean ====
section
/-! SUPPORT. What `exec` and `step` are, by instruction and by input: cited instead of unfolding the
dispatch and the fetch. -/

namespace Sys2Proof.Machine

/-- A host instruction's meaning is its command's, over its expansion (40_bus_transaction.md R171). -/
theorem exec_eq_command {i : Instr} {c : Cmd} (h : commandOf i = some c) (s : State) :
    exec i s = command c (expand c) s := by
  cases i <;> simp only [commandOf, Option.some.injEq, reduceCtorEq] at h <;> subst h <;> rfl

theorem commandOf_instrOf (c : Cmd) : commandOf (instrOf c) = some c := by cases c <;> rfl

/-- The instruction latched in `cur` means its command. -/
theorem exec_instrOf (c : Cmd) (s : State) : exec (instrOf c) s = command c (expand c) s :=
  exec_eq_command (commandOf_instrOf c) s

/-- A wire opcode's meaning is the exchange of its byte. -/
theorem exec_eq_wireOpcode {i : Instr} {b : Byte} (h : encodeWire i = some b) (s : State) :
    exec i s = wireOpcode b s := by
  cases i <;> simp only [encodeWire, Option.some.injEq, reduceCtorEq] at h <;> subst h <;> rfl

/-- A byte of the wire table is the byte of the instruction it decodes to (30_encoding.md R132). -/
theorem encodeWire_of_decodeWire : ∀ (b : Byte) (i : Instr),
    decodeWire b = some i → encodeWire i = some b := by
  have h : ∀ b : Byte, ((decodeWire b).map encodeWire).getD (some b) = some b := by decide
  intro b i hb
  simpa [hb] using h b

/-! ## A command, by input -/

theorem command_hostWrite {s : State} {off : Int} {n : Nat} {w : Word} (h : s.input = .hostWrite off n w)
    (c : Cmd) (ops : List MicroOp) : command c ops s = .next (acceptCmd w c s) := by
  simp [command, h]

theorem command_seq {s : State} {d : Draw} (h : s.input = .seq d) {c : Cmd} (hc : s.cur = some c)
    (ops : List MicroOp) : command c ops s = performAt ops d s := by
  simp [command, h, hc]

theorem wireOpcode_seq {s : State} {d : Draw} (h : s.input = .seq d) (b : Byte) :
    wireOpcode b s = .next (opXchg b .discard d s) := by
  simp [wireOpcode, h]

/-- A running command's Seq turn performs the micro-operation at the micro-pc (R170). -/
theorem exec_seq {s : State} {d : Draw} {c : Cmd} {op : MicroOp} {i : Instr} (hi : commandOf i = some c)
    (h : s.input = .seq d) (hc : s.cur = some c) (hop : (expand c)[s.upc]? = some op) :
    exec i s = .next (perform op d s) := by
  rw [exec_eq_command hi, command_seq h hc, performAt, hop]

/-! ## A step, by input -/

/-- Running the wire opcode at a frame's opcode byte is running the command there. -/
theorem wireOpcodeAt_spec {s : State} {d : Draw} {c : Cmd} {i : Instr} (h : s.input = .seq d)
    (hw : wireOpcodeAt (expand c) s.upc = some i) : exec i s = performAt (expand c) d s := by
  unfold wireOpcodeAt at hw
  split at hw
  · cases hw
  · rename_i j hj
    split at hw
    · rename_i b _ hx
      rw [exec_eq_wireOpcode (encodeWire_of_decodeWire _ _ hw), wireOpcode_seq h, performAt, hj, hx]
      rfl
    · cases hw

/-- A Seq turn with a command latched (40_bus_transaction.md R170). -/
theorem step_seq {s : State} {d : Draw} {c : Cmd} (h : s.input = .seq d) (hc : s.cur = some c) :
    step s = onNext State.advance (performAt (expand c) d s) := by
  unfold step fetch
  simp only [h, seqFetch, hc]
  cases hw : wireOpcodeAt (expand c) s.upc with
  | some i => simp only [wireOpcodeAt_spec h hw]
  | none => simp only [exec_instrOf, command_seq h hc]

theorem step_seq_idle {s : State} {d : Draw} (h : s.input = .seq d) (hc : s.cur = none) :
    step s = .next s.advance := by
  simp [step, fetch, h, seqFetch, hc, onNext]

theorem step_irq {s : State} (h : s.input = .irq) : step s = .next (irqStep s).advance := by
  simp [step, fetch, h, onNext]

theorem step_remote {s : State} {r : Byte} (h : s.input = .remote r) :
    step s = onNext State.advance (remoteStep r s) := by
  simp [step, fetch, h]

theorem step_blockReset {s : State} (h : s.input = .blockReset) :
    step s = .next s.blockReset.advance := by
  simp [step, fetch, h, onNext]

theorem step_hostRead {s : State} {off : Int} {n : Nat} {drdy : Drdy}
    (h : s.input = .hostRead off n drdy) :
    step s = onNext State.advance (hostReadStep off n drdy s) := by
  simp [step, fetch, h]

/-- A write to `CMD` (60_exceptions.md R342): rejection of a word that does not decode, else the decoded
command's acceptance, whose own first check is the busy check. -/
theorem step_cmdWrite {s : State} {w : Word} (h : s.input = .hostWrite 0 4 w) :
    step s = .next (State.advance
      (if s.busy then rejectWord w .errBusy s
       else match decodeCmd w with
        | .ok c => acceptCmd w c s
        | .error e => rejectWord w e s)) := by
  have ha : admitted 0 4 = true := by decide
  unfold step fetch
  simp only [h, ha, if_true, presentWord]
  cases hb : s.busy with
  | true => simp [onNext]
  | false =>
    cases hd : decodeCmd w with
    | error e => simp [decodeWord, hd, onNext]
    | ok c =>
      have hc : commandOf (tableName (instrOf c)) = some c := by
        cases c <;> simp only [instrOf, tableName, commandOf]
        split_ifs with h1 h2 <;> simp [*]
      simp [decodeWord, hd, exec_eq_command hc, command_hostWrite h, onNext]

theorem step_registerWrite {s : State} {off : Int} {v : Word} (h : s.input = .hostWrite off 4 v)
    (ha : admitted off 4 = true) (h0 : off ≠ 0) :
    step s = .next (registerWrite off v s).advance := by
  simp [step, fetch, h, ha, h0, onNext]

theorem step_refusedWrite {s : State} {off : Int} {n : Nat} {v : Word}
    (h : s.input = .hostWrite off n v) (ha : admitted off n = false) :
    step s = .refused (.hostAccess off n) := by
  simp [step, fetch, h, ha, onNext]

/-! ## Runs, one step at a time -/

theorem run_next {n : Nat} {s t : State} (h : step s = .next t) :
    Host.Core.run core (n + 1) s = Host.Core.run core n t := by
  simp only [Host.Core.run, core]
  rw [h]

/-- A command accepted at the start of a run (60_exceptions.md R342). -/
theorem run_accept {n : Nat} {s : State} {c : Cmd} {w : Word} (h : s.input = .hostWrite 0 4 w)
    (hb : s.busy = false) (hd : decodeCmd w = .ok c) (hg : idGate s.idst c = none) :
    Host.Core.run core (n + 1) s = Host.Core.run core n (State.advance { s with
      cur := some c, upc := 0, busy := true, err := .errNone, trace := s.trace ++ [.accept w] }) := by
  apply run_next
  rw [step_cmdWrite h, hd]
  simp [hb, acceptCmd, hg, State.emit]

theorem run_seq {n : Nat} {s : State} {d : Draw} {c : Cmd} {op : MicroOp} (h : s.input = .seq d)
    (hc : s.cur = some c) (hop : (expand c)[s.upc]? = some op) :
    Host.Core.run core (n + 1) s = Host.Core.run core n (perform op d s).advance := by
  apply run_next
  rw [step_seq h hc, performAt, hop]
  rfl

theorem run_irq {n : Nat} {s : State} (h : s.input = .irq) :
    Host.Core.run core (n + 1) s = Host.Core.run core n (irqStep s).advance :=
  run_next (step_irq h)

theorem run_remote {n : Nat} {s t : State} {r : Byte} (h : s.input = .remote r)
    (ht : remoteStep r s = .next t) :
    Host.Core.run core (n + 1) s = Host.Core.run core n t.advance :=
  run_next (by rw [step_remote h, ht]; rfl)

end Sys2Proof.Machine
end

