-- ==== Sys2Proof/Laws/Ops.lean ====
section
/-! SUPPORT. One lemma per shared operation that says everything it can do: acceptance, aborts, the
micro-operations, the handler, the responder, the window; and which fields no micro-operation writes. -/

namespace Sys2Proof.Machine

/-! ## Acceptance (60_exceptions.md R342 to R344) -/

/-- A presented command is latched, or rejected with `ERR_BUSY` or its gate's code. -/
theorem acceptCmd_cases (w : Word) (c : Cmd) (s : State) :
    (s.busy = true ∧ acceptCmd w c s = rejectWord w .errBusy s) ∨
    (∃ e, s.busy = false ∧ idGate s.idst c = some e ∧ acceptCmd w c s = rejectWord w e s) ∨
    (s.busy = false ∧ idGate s.idst c = none ∧ acceptCmd w c s = { s with
      cur := some c, upc := 0, busy := true, err := .errNone, trace := s.trace ++ [.accept w] }) := by
  unfold acceptCmd
  cases hb : s.busy with
  | true => exact .inl ⟨rfl, by simp⟩
  | false =>
    cases hg : idGate s.idst c with
    | some e => exact .inr (.inl ⟨e, rfl, rfl, by simp⟩)
    | none => exact .inr (.inr ⟨rfl, rfl, by simp [State.emit]⟩)

/-! ## Aborts (60_exceptions.md R348 to R350) -/

/-- The events of an abort: one for each line or transfer it releases, then `Abort`. -/
def abortEvents (code : ErrCode) (s : State) : List Event :=
  (if s.cs1 = .asserted then [.cs1 .deasserted] else [])
    ++ (if s.x2Busy = true then [.disarm2] else [])
    ++ (if s.sel2 = .asserted then [.sel2 .deasserted .seq] else []) ++ [.abort code]

/-- They depend only on the lines and the transfer. -/
theorem abortEvents_congr {s t : State} (code : ErrCode) (h1 : t.cs1 = s.cs1)
    (h2 : t.x2Busy = s.x2Busy) (h3 : t.sel2 = s.sel2) : abortEvents code t = abortEvents code s := by
  simp only [abortEvents, h1, h2, h3]

/-- The one `Abort` among them has their code. -/
theorem abort_mem_abortEvents {code e : ErrCode} {s : State} :
    Event.abort e ∈ abortEvents code s ↔ e = code := by
  simp only [abortEvents]
  split_ifs <;> simp

/-- What an abort leaves before the code's own effect and the command's end. -/
theorem releaseAll_eq (code : ErrCode) (s : State) :
    { releaseSel2 (disarmTransfer (releaseCs1 s)) with err := code }.emit (.abort code) =
      { s with
        cs1 := .deasserted, x2Busy := false, x2Idx := if s.x2Busy = true then 0 else s.x2Idx
        sel2 := .deasserted, err := code, trace := s.trace ++ abortEvents code s } := by
  rcases s with ⟨cs1, rst, sel2, busy, idst, err, idn, cirq, rxd, sam, rxb, txb, xi, xb, irq, fc, cur, upc,
    tr, scr, tick, ho⟩
  cases cs1 <;> cases xb <;> cases sel2 <;>
    simp [releaseSel2, disarmTransfer, releaseCs1, State.emit, abortEvents]

theorem abort_poll_eq (code : ErrCode) (s : State) :
    abortWith code id s = { s with
      cs1 := .deasserted, x2Busy := false, x2Idx := if s.x2Busy = true then 0 else s.x2Idx
      sel2 := .deasserted, err := code, trace := s.trace ++ abortEvents code s
      busy := false, cur := none, upc := 0 } := by
  simp only [abortWith, releaseAll_eq, id]

theorem abort_gate_eq (code : ErrCode) (s : State) :
    abortWith code gateTimeoutEffect s = { s with
      cs1 := .deasserted, x2Busy := false, x2Idx := if s.x2Busy = true then 0 else s.x2Idx
      sel2 := .deasserted, err := code, trace := s.trace ++ abortEvents code s
      idst := if s.idst = .ok then .unchecked else s.idst
      busy := false, cur := none, upc := 0 } := by
  simp only [abortWith, releaseAll_eq, gateTimeoutEffect]

theorem abort_xfer_eq (code : ErrCode) (s : State) :
    abortWith code xferEffect s = { s with
      cs1 := .deasserted, x2Busy := false, x2Idx := if s.x2Busy = true then 0 else s.x2Idx
      sel2 := .deasserted, err := code, trace := s.trace ++ abortEvents code s
      failCount := s.failCount + 1
      idst := if failLimitReached (s.failCount + 1) then .halted else s.idst
      busy := false, cur := none, upc := 0 } := by
  simp only [abortWith, releaseAll_eq, xferEffect]

/-! ## The micro-operations that hold or abort -/

/-- `XCHG` holds, aborts, or goes on with the byte kept (40_bus_transaction.md R176, R177). -/
theorem opXchg_cases (b : Byte) (dst : Dst) (d : Draw) (s : State) :
    (d.grant = false ∧ opXchg b dst d s = s) ∨
    (d.grant = true ∧ d.xerr = true ∧ Config.checkXferErr = true ∧
      opXchg b dst d s =
        abortWith .errXfer xferEffect (storeRx dst d.miso (s.emit (.x1 b d.miso d.xerr)))) ∨
    (d.grant = true ∧ (d.xerr = false ∨ Config.checkXferErr = false) ∧
      opXchg b dst d s = (storeRx dst d.miso (s.emit (.x1 b d.miso d.xerr))).nextOp) := by
  unfold opXchg
  cases d.grant <;> cases d.xerr <;> cases Config.checkXferErr <;> simp

/-- `GATE` aborts, passes or holds (R178, R179). -/
theorem opGate_cases (d : Draw) (s : State) :
    (d.expire = true ∧ Config.readyTimeout ≠ none ∧
      opGate d s = abortWith .errUnresponsive gateTimeoutEffect s) ∨
    (d.drdy = .low ∧ opGate d s = s.nextOp) ∨ (d.drdy = .high ∧ opGate d s = s) := by
  unfold opGate
  cases d.expire <;> cases d.drdy <;> cases Config.readyTimeout <;> simp

/-- `POLL2` aborts, holds or passes (44_forwarding.md R295, R296). -/
theorem opPoll2_cases (d : Draw) (s : State) :
    (d.expire = true ∧ Config.xfer2Timeout ≠ none ∧ opPoll2 d s = abortWith .errUnresponsive id s) ∨
    (s.x2Busy = true ∧ opPoll2 d s = s) ∨ (s.x2Busy = false ∧ opPoll2 d s = s.nextOp) := by
  unfold opPoll2
  cases d.expire <;> cases s.x2Busy <;> cases Config.xfer2Timeout <;> simp

/-- `TELE` passes or holds (40_bus_transaction.md R184). -/
theorem opTele_cases (e : TeleExpr) (d : Draw) (s : State) :
    (d.accept = true ∧ opTele e d s = (s.emit (.tele (teleValue s e))).nextOp) ∨
    (d.accept = false ∧ opTele e d s = s) := by
  unfold opTele
  cases d.accept <;> simp

/-- `IRQWAIT` holds or passes (44_forwarding.md R292). -/
theorem opIrqwait_cases (s : State) :
    (s.irqPending = true ∧ opIrqwait s = s) ∨ (s.irqPending = false ∧ opIrqwait s = s.nextOp) := by
  unfold opIrqwait
  cases s.irqPending <;> simp

/-- `IDSET` settles the identity (42_identification.md R233). -/
theorem opIdset_cases (s : State) :
    (s.idNibble = Config.expectedId ∧ opIdset s = { s with idst := .ok, upc := s.upc + 1 }) ∨
    (s.idNibble ≠ Config.expectedId ∧
      opIdset s = { s with idst := .halted, err := .errIdMismatch, upc := s.upc + 1 }) := by
  unfold opIdset
  split_ifs with h
  · exact .inl ⟨h, rfl⟩
  · exact .inr ⟨h, rfl⟩

/-! ## What no micro-operation writes -/

/-- `CTRL`, the pending interrupt and the model's surroundings are not `Seq`'s to write. -/
theorem perform_surroundings (op : MicroOp) (d : Draw) (s : State) :
    (perform op d s).cirqEn = s.cirqEn ∧ (perform op d s).irqPending = s.irqPending ∧
    (perform op d s).script = s.script ∧ (perform op d s).tick = s.tick ∧
    (perform op d s).hostOut = s.hostOut := by
  cases op with
  | xchg b dst =>
    rcases opXchg_cases b dst d s with ⟨-, h⟩ | ⟨-, -, -, h⟩ | ⟨-, -, h⟩ <;>
      simp only [perform, h, abort_xfer_eq] <;> cases dst <;> simp [storeRx]
  | gate =>
    rcases opGate_cases d s with ⟨-, -, h⟩ | ⟨-, h⟩ | ⟨-, h⟩ <;> simp [perform, h, abort_gate_eq]
  | poll2 =>
    rcases opPoll2_cases d s with ⟨-, -, h⟩ | ⟨-, h⟩ | ⟨-, h⟩ <;> simp [perform, h, abort_poll_eq]
  | tele e => rcases opTele_cases e d s with ⟨-, h⟩ | ⟨-, h⟩ <;> simp [perform, h]
  | teleBanner =>
    rcases opTele_cases (.banner (decide (s.idNibble = Config.expectedId))) d s with ⟨-, h⟩ | ⟨-, h⟩ <;>
      simp [perform, opTeleBanner, h]
  | irqwait => rcases opIrqwait_cases s with ⟨-, h⟩ | ⟨-, h⟩ <;> simp [perform, h]
  | idset => rcases opIdset_cases s with ⟨-, h⟩ | ⟨-, h⟩ <;> simp [perform, h]
  | csa | csd | delay | clrrx | finish | setrx | decode | idchk | rsta | rstd | sela | arm2 | seld =>
    simp [perform, opCsa, opCsd, opDelay, opClrrx, opFinish, opSetrx, opDecode, opIdchk, opRsta, opRstd,
      opSela, opArm2, opSeld]

/-- A micro-operation only appends to the trace (10_state.md R70). -/
theorem perform_trace (op : MicroOp) (d : Draw) (s : State) :
    ∃ es, (perform op d s).trace = s.trace ++ es := by
  cases op with
  | xchg b dst =>
    rcases opXchg_cases b dst d s with ⟨-, h⟩ | ⟨-, -, -, h⟩ | ⟨-, -, h⟩ <;>
      simp only [perform, h, abort_xfer_eq] <;> cases dst <;> simp [storeRx]
  | gate =>
    rcases opGate_cases d s with ⟨-, -, h⟩ | ⟨-, h⟩ | ⟨-, h⟩ <;> simp [perform, h, abort_gate_eq]
  | poll2 =>
    rcases opPoll2_cases d s with ⟨-, -, h⟩ | ⟨-, h⟩ | ⟨-, h⟩ <;> simp [perform, h, abort_poll_eq]
  | tele e => rcases opTele_cases e d s with ⟨-, h⟩ | ⟨-, h⟩ <;> simp [perform, h]
  | teleBanner =>
    rcases opTele_cases (.banner (decide (s.idNibble = Config.expectedId))) d s with ⟨-, h⟩ | ⟨-, h⟩ <;>
      simp [perform, opTeleBanner, h]
  | irqwait => rcases opIrqwait_cases s with ⟨-, h⟩ | ⟨-, h⟩ <;> simp [perform, h]
  | idset => rcases opIdset_cases s with ⟨-, h⟩ | ⟨-, h⟩ <;> simp [perform, h]
  | csa | csd | delay | clrrx | finish | setrx | decode | idchk | rsta | rstd | sela | arm2 | seld =>
    simp [perform, opCsa, opCsd, opDelay, opClrrx, opFinish, opSetrx, opDecode, opIdchk, opRsta, opRstd,
      opSela, opArm2, opSeld]

/-- Each register and buffer has its own writers among the micro-operations (10_state.md R45, R53 to R60). -/
theorem perform_registers (op : MicroOp) (d : Draw) (s : State) :
    (op ≠ .setrx → (perform op d s).rxdata = s.rxdata) ∧
    (op ≠ .decode → (perform op d s).sample = s.sample) ∧
    (op ≠ .idchk → (perform op d s).idNibble = s.idNibble) ∧
    ((∀ b i, op ≠ .xchg b (.rx i)) → op ≠ .clrrx → (perform op d s).rxBuf = s.rxBuf) ∧
    ((∀ src, op ≠ .arm2 src) → (perform op d s).tx2Buf = s.tx2Buf) ∧
    (op ≠ .rsta → op ≠ .rstd → (perform op d s).rst = s.rst) := by
  cases op with
  | xchg b dst =>
    rcases opXchg_cases b dst d s with ⟨-, h⟩ | ⟨-, -, -, h⟩ | ⟨-, -, h⟩ <;>
      simp only [perform, h, abort_xfer_eq] <;> cases dst <;> simp [storeRx]
  | gate =>
    rcases opGate_cases d s with ⟨-, -, h⟩ | ⟨-, h⟩ | ⟨-, h⟩ <;> simp [perform, h, abort_gate_eq]
  | poll2 =>
    rcases opPoll2_cases d s with ⟨-, -, h⟩ | ⟨-, h⟩ | ⟨-, h⟩ <;> simp [perform, h, abort_poll_eq]
  | tele e => rcases opTele_cases e d s with ⟨-, h⟩ | ⟨-, h⟩ <;> simp [perform, h]
  | teleBanner =>
    rcases opTele_cases (.banner (decide (s.idNibble = Config.expectedId))) d s with ⟨-, h⟩ | ⟨-, h⟩ <;>
      simp [perform, opTeleBanner, h]
  | irqwait => rcases opIrqwait_cases s with ⟨-, h⟩ | ⟨-, h⟩ <;> simp [perform, h]
  | idset => rcases opIdset_cases s with ⟨-, h⟩ | ⟨-, h⟩ <;> simp [perform, h]
  | csa | csd | delay | clrrx | finish | setrx | decode | idchk | rsta | rstd | sela | arm2 | seld =>
    simp [perform, opCsa, opCsd, opDelay, opClrrx, opFinish, opSetrx, opDecode, opIdchk, opRsta, opRstd,
      opSela, opArm2, opSeld]

/-- With nothing armed and `SEL2` deasserted, only `SELA` and `ARM2` write `SEL2` or the transfer
(10_state.md R46, R60). -/
theorem perform_secondary (op : MicroOp) (d : Draw) {s : State} (hx : s.x2Busy = false)
    (hs : s.sel2 = .deasserted) (h1 : op ≠ .sela) (h2 : ∀ src, op ≠ .arm2 src) :
    (perform op d s).sel2 = s.sel2 ∧ (perform op d s).x2Idx = s.x2Idx ∧
    (perform op d s).x2Busy = s.x2Busy := by
  cases op with
  | xchg b dst =>
    rcases opXchg_cases b dst d s with ⟨-, h⟩ | ⟨-, -, -, h⟩ | ⟨-, -, h⟩ <;>
      simp only [perform, h, abort_xfer_eq] <;> cases dst <;> simp [storeRx, hx, hs]
  | gate =>
    rcases opGate_cases d s with ⟨-, -, h⟩ | ⟨-, h⟩ | ⟨-, h⟩ <;> simp [perform, h, abort_gate_eq, hx, hs]
  | poll2 =>
    rcases opPoll2_cases d s with ⟨-, -, h⟩ | ⟨-, h⟩ | ⟨-, h⟩ <;> simp [perform, h, abort_poll_eq, hx, hs]
  | tele e => rcases opTele_cases e d s with ⟨-, h⟩ | ⟨-, h⟩ <;> simp [perform, h]
  | teleBanner =>
    rcases opTele_cases (.banner (decide (s.idNibble = Config.expectedId))) d s with ⟨-, h⟩ | ⟨-, h⟩ <;>
      simp [perform, opTeleBanner, h]
  | irqwait => rcases opIrqwait_cases s with ⟨-, h⟩ | ⟨-, h⟩ <;> simp [perform, h]
  | idset => rcases opIdset_cases s with ⟨-, h⟩ | ⟨-, h⟩ <;> simp [perform, h]
  | sela => exact absurd rfl h1
  | arm2 src => exact absurd rfl (h2 src)
  | csa | csd | delay | clrrx | finish | setrx | decode | idchk | rsta | rstd | seld =>
    simp [perform, opCsa, opCsd, opDelay, opClrrx, opFinish, opSetrx, opDecode, opIdchk, opRsta, opRstd,
      opSeld, hs]

/-! ## The Seq step -/

/-- A running command's step performs the micro-operation at the micro-pc, or faults past the end. -/
theorem performAt_cases (ops : List MicroOp) (d : Draw) (s : State) :
    (∃ op, ops[s.upc]? = some op ∧ performAt ops d s = .next (perform op d s)) ∨
    (ops[s.upc]? = none ∧ performAt ops d s = .fault .microPcOutOfRange) := by
  unfold performAt
  cases ops[s.upc]? with
  | some op => exact .inl ⟨op, rfl, rfl⟩
  | none => exact .inr ⟨rfl, rfl⟩

/-- What a command answers: its acceptance, a micro-operation of it, nothing, or the fault. -/
theorem command_cases (c : Cmd) (ops : List MicroOp) (s : State) :
    (∃ off n w, s.input = .hostWrite off n w ∧ command c ops s = .next (acceptCmd w c s)) ∨
    (∃ d op, s.input = .seq d ∧ s.cur = some c ∧ ops[s.upc]? = some op ∧
      command c ops s = .next (perform op d s)) ∨
    command c ops s = .next s ∨ command c ops s = .fault .microPcOutOfRange := by
  unfold command
  cases hi : s.input with
  | hostWrite off n w => exact .inl ⟨off, n, w, rfl, rfl⟩
  | seq d =>
    by_cases hc : s.cur = some c
    · rcases performAt_cases ops d s with ⟨op, hop, h⟩ | ⟨-, h⟩
      · exact .inr (.inl ⟨d, op, rfl, hc, hop, by simp [hc, h]⟩)
      · exact .inr (.inr (.inr (by simp [hc, h])))
    · exact .inr (.inr (.inl (by simp [hc])))
  | hostRead _ _ _ | irq | remote _ | blockReset => exact .inr (.inr (.inl rfl))

/-- What a wire opcode answers: its exchange, or nothing. -/
theorem wireOpcode_cases (b : Byte) (s : State) :
    (∃ d, s.input = .seq d ∧ wireOpcode b s = .next (opXchg b .discard d s)) ∨
    wireOpcode b s = .next s := by
  unfold wireOpcode
  cases s.input with
  | seq d => exact .inl ⟨d, rfl, rfl⟩
  | hostWrite _ _ _ | hostRead _ _ _ | irq | remote _ | blockReset => exact .inr rfl

/-! ## The other agents -/

/-- The handler deasserts `SEL2` and clears the pending interrupt, or has nothing to do
(60_exceptions.md R352). -/
theorem irqStep_cases (s : State) :
    (s.irqPending = true ∧ irqStep s = { s with
      sel2 := .deasserted, irqPending := false, trace := s.trace ++ [.sel2 .deasserted .irq] }) ∨
    (s.irqPending = false ∧ irqStep s = s) := by
  unfold irqStep
  cases s.irqPending <;> simp [State.emit]

/-- `Remote` clocks an armed byte, completing the transfer with the third, or a stray one
(44_forwarding.md R299, R300). -/
theorem remoteStep_cases (r : Byte) (s : State) :
    (s.x2Busy = false ∧ remoteStep r s = .next (s.emit (.x2 r true))) ∨
    (∃ b, s.x2Busy = true ∧ byteAt s.tx2Buf s.x2Idx.val = some b ∧ s.x2Idx ≠ 2 ∧
      remoteStep r s = .next { s with x2Idx := s.x2Idx + 1, trace := s.trace ++ [.x2 b false] }) ∨
    (∃ b, s.x2Busy = true ∧ byteAt s.tx2Buf s.x2Idx.val = some b ∧ s.x2Idx = 2 ∧
      remoteStep r s = .next { s with
        x2Idx := 3, x2Busy := false, irqPending := s.irqPending || s.cirqEn
        trace := s.trace ++ [.x2 b false, .done2] }) ∨
    (s.x2Busy = true ∧ byteAt s.tx2Buf s.x2Idx.val = none ∧
      remoteStep r s = .fault .armedIndexOutOfRange) := by
  unfold remoteStep
  cases hx : s.x2Busy with
  | false => exact .inl ⟨rfl, by simp⟩
  | true =>
    cases hb : byteAt s.tx2Buf s.x2Idx.val with
    | none => exact .inr (.inr (.inr ⟨rfl, rfl, by simp⟩))
    | some b =>
      by_cases h2 : s.x2Idx = 2
      · exact .inr (.inr (.inl ⟨b, rfl, rfl, h2, by simp [h2, completeTransfer, State.emit]⟩))
      · exact .inr (.inl ⟨b, rfl, rfl, h2, by simp [h2, State.emit]⟩)

/-- An admitted access is an aligned word of the window (20_memory.md R101). -/
theorem admitted_iff (off : Int) (n : Nat) :
    admitted off n = true ↔ n = 4 ∧ 0 ≤ off ∧ off < 0x20 ∧ off % 4 = 0 := by
  simp [admitted, and_assoc]

/-! ## What the invariant reads -/

theorem doneOps_none {s : State} (h : s.cur = none) : doneOps s = [] := by simp [doneOps, h]

theorem doneOps_some {s : State} {c : Cmd} (h : s.cur = some c) :
    doneOps s = (expand c).take s.upc := by simp [doneOps, h]

theorem nextMicroOp_none {s : State} (h : s.cur = none) : nextMicroOp s = none := by
  simp [nextMicroOp, h]

theorem nextMicroOp_some {s : State} {c : Cmd} (h : s.cur = some c) :
    nextMicroOp s = (expand c)[s.upc]? := by simp [nextMicroOp, h]

/-- Outside a push nothing is armed and `SEL2` is deasserted (44_forwarding.md R301, R302). -/
theorem Inv.secondary_idle {s : State} {c : Cmd} {op : MicroOp} (h : Inv s) (hc : s.cur = some c)
    (hop : (expand c)[s.upc]? = some op) (h1 : ∀ src, op ≠ .arm2 src) (h2 : op ≠ .poll2)
    (h3 : op ≠ .seld) : s.x2Busy = false ∧ s.sel2 = .deasserted := by
  have hn : nextMicroOp s = some op := (nextMicroOp_some hc).trans hop
  refine ⟨?_, ?_⟩
  · cases hx : s.x2Busy with
    | false => rfl
    | true =>
      have hp := h.armed_poll hx
      rw [hn] at hp
      exact absurd (Option.some.inj hp) h2
  · cases hs : s.sel2 with
    | deasserted => rfl
    | asserted =>
      have hp := h.sel2_push hs
      rw [doneOps_some hc] at hp
      rcases (expand_shape c _ _ hop).push_ops hp with ⟨src, he⟩ | he | he
      · exact absurd he (h1 src)
      · exact absurd he h2
      · exact absurd he h3

/-- Outside a frame `CS1` is deasserted (40_bus_transaction.md R181, R182). -/
theorem Inv.cs1_idle {s : State} {c : Cmd} {op : MicroOp} (h : Inv s) (hc : s.cur = some c)
    (hop : (expand c)[s.upc]? = some op) (h1 : ∀ b dst, op ≠ .xchg b dst) (h2 : op ≠ .csd) :
    s.cs1 = .deasserted := by
  cases hs : s.cs1 with
  | deasserted => rfl
  | asserted =>
    have hp := h.cs1_frame.1 hs
    rw [doneOps_some hc] at hp
    rcases (expand_shape c _ _ hop).frame_ops hp with ⟨b, dst, he⟩ | he
    · exact absurd he (h1 b dst)
    · exact absurd he h2

/-- The invariant reads only these fields. -/
theorem Inv.congr {s t : State} (h : Inv s) (h1 : t.cs1 = s.cs1) (h2 : t.rst = s.rst)
    (h3 : t.sel2 = s.sel2) (h4 : t.busy = s.busy) (h5 : t.idst = s.idst)
    (h6 : t.idNibble = s.idNibble) (h7 : t.x2Idx = s.x2Idx) (h8 : t.x2Busy = s.x2Busy)
    (h9 : t.irqPending = s.irqPending) (h10 : t.failCount = s.failCount) (h11 : t.cur = s.cur)
    (h12 : t.upc = s.upc) : Inv t := by
  have e1 : doneOps t = doneOps s := by simp [doneOps, h11, h12]
  have e2 : nextMicroOp t = nextMicroOp s := by simp [nextMicroOp, h11, h12]
  constructor <;> simp only [e1, e2, h1, h2, h3, h4, h5, h6, h7, h8, h9, h10, h11, h12]
  exacts [h.1, h.2, h.3, h.4, h.5, h.6, h.7, h.8, h.9, h.10, h.11, h.12, h.13, h.14, h.15, h.16, h.17]

end Sys2Proof.Machine
end

