-- ==== Sys2Proof/Laws/PerInstr.lean ====
section
/-! SUPPORT. Every encoding lies in its row of spec/opcode_table.json: the row's length, match and mask,
per instruction (30_encoding.md R132, R134, R144). -/

namespace Sys2Proof.Laws.RowMatch

open Sys2Proof.Machine

/-- Length in bits, match and mask of an instruction's row. -/
def row : Instr → Nat × Nat × Nat
  | .nop => (32, 0x00000000, 0xFFFFFFFF)
  | .rreg _ => (32, 0x10000000, 0xF0FFFFFF)
  | .wreg _ _ => (32, 0x20000000, 0xF0FFFF00)
  | .opcode _ => (32, 0x30000000, 0xFFFFFF00)
  | .rdata => (32, 0x40000000, 0xFFFFFFFF)
  | .identify => (32, 0x50000000, 0xFFFFFFFF)
  | .configure => (32, 0x60000000, 0xFFFFFFFF)
  | .acquire _ => (32, 0x70000000, 0xFFFFFFF0)
  | .forward _ => (32, 0x80000000, 0xFF000000)
  | .resetPulse => (32, 0x90000000, 0xFFFFFFFF)
  | .wait _ => (32, 0xA0000000, 0xFF000000)
  | .sync => (32, 0x300000FC, 0xFFFFFFFF)
  | .wakeup => (32, 0x30000000, 0xFFFFFFFF)
  | .wireRreg _ => (8, 0x10, 0xF0)
  | .wireWreg _ => (8, 0x50, 0xF0)
  | .wireSync => (8, 0xFC, 0xFF)
  | .wireWakeup => (8, 0x00, 0xFF)
  | .wireRdata => (8, 0x01, 0xFF)

/-- The encoding of `i` has its row's length, fits it, and has the row's match under its mask. -/
def Statement (i : Instr) : Prop :=
  (encode i).1 = (row i).1 ∧ (encode i).2 < 2 ^ (row i).1 ∧
    (encode i).2 &&& (row i).2.2 = (row i).2.1

/-- For a host command the row's test on the word suffices. -/
theorem of_word {i : Instr} {c : Cmd} (m k : Word) (hc : commandOf i = some c)
    (hr : row i = (32, m.toNat, k.toNat)) (h : encodeCmd c &&& k = m) : Statement i := by
  simp only [Statement, encode, hc, hr]
  refine ⟨trivial, (encodeCmd c).isLt, ?_⟩
  rw [← h, BitVec.toNat_and]

theorem nop : Statement .nop := by unfold Statement; decide

theorem rreg (a : Nibble) : Statement (.rreg a) := by
  refine of_word 0x10000000 0xF0FFFFFF rfl rfl ?_
  apply BitVec.eq_of_getLsbD_eq
  intro i hi
  interval_cases i <;> simp [encodeCmd, packFields]

theorem wreg (a : Nibble) (v : Byte) : Statement (.wreg a v) := by
  refine of_word 0x20000000 0xF0FFFF00 rfl rfl ?_
  apply BitVec.eq_of_getLsbD_eq
  intro i hi
  interval_cases i <;> simp [encodeCmd, packFields]

theorem opcode (b : Byte) : Statement (.opcode b) := by
  refine of_word 0x30000000 0xFFFFFF00 rfl rfl ?_
  apply BitVec.eq_of_getLsbD_eq
  intro i hi
  interval_cases i <;> simp [encodeCmd, packFields]

theorem rdata : Statement .rdata := by unfold Statement; decide

theorem identify : Statement .identify := by unfold Statement; decide

theorem configure : Statement .configure := by unfold Statement; decide

theorem acquire (ch : Nibble) : Statement (.acquire ch) := by
  refine of_word 0x70000000 0xFFFFFFF0 rfl rfl ?_
  apply BitVec.eq_of_getLsbD_eq
  intro i hi
  interval_cases i <;> simp [encodeCmd, packFields]

theorem forward (s : Sample) : Statement (.forward s) := by
  refine of_word 0x80000000 0xFF000000 rfl rfl ?_
  apply BitVec.eq_of_getLsbD_eq
  intro i hi
  interval_cases i <;> simp [encodeCmd, packFields]

theorem resetPulse : Statement .resetPulse := by unfold Statement; decide

theorem wait (n : Sample) : Statement (.wait n) := by
  refine of_word 0xA0000000 0xFF000000 rfl rfl ?_
  apply BitVec.eq_of_getLsbD_eq
  intro i hi
  interval_cases i <;> simp [encodeCmd, packFields]

theorem sync : Statement .sync := by unfold Statement; decide

theorem wakeup : Statement .wakeup := by unfold Statement; decide

theorem wireRreg (a : Nibble) : Statement (.wireRreg a) := by unfold Statement; revert a; decide

theorem wireWreg (a : Nibble) : Statement (.wireWreg a) := by unfold Statement; revert a; decide

theorem wireSync : Statement .wireSync := by unfold Statement; decide

theorem wireWakeup : Statement .wireWakeup := by unfold Statement; decide

theorem wireRdata : Statement .wireRdata := by unfold Statement; decide

end Sys2Proof.Laws.RowMatch
end

