-- ==== Sys2Proof/Tests/Slice0.lean ====
section
/-! SUPPORT. Tests against the vectors of 95_test_vectors.md and the encodings of 30_encoding.md, and for each
statement with hypotheses a named witness that meets them. -/

namespace Sys2Proof.Tests

open Sys2Proof.Machine Sys2Proof.Statements

/-! ## Small states -/

/-- Calm draws with received byte `m`. -/
def calmDraw (m : Byte) : Draw :=
  { grant := true, miso := m, xerr := false, drdy := .low, accept := true, expire := false }

/-- Draws that hold whatever can hold. -/
def heldDraw : Draw :=
  { grant := false, miso := 0, xerr := false, drdy := .high, accept := false, expire := false }

/-- A granted exchange with the transport-error flag. -/
def errorDraw (m : Byte) : Draw := { calmDraw m with xerr := true }

/-- The turn on which the schedule takes a timeout. -/
def expiredDraw : Draw := { heldDraw with expire := true }

/-- Idle in state OK, with this input next. -/
def idle (i : Input) : State := { State.reset with idst := .ok, idNibble := 3, script := [i] }

/-- After a failed identification, with this input next. -/
def halted (i : Input) : State :=
  { State.reset with idst := .halted, idNibble := 5, err := .errIdMismatch, script := [i] }

/-- Command `c` at micro-pc `k` in state OK, with a Seq turn next. -/
def running (c : Cmd) (k : Nat) (d : Draw) : State :=
  { State.reset with
    idst := .ok, idNibble := 3, busy := true, cur := some c, upc := k, script := [.seq d] }

/-- `IDENTIFY` at micro-pc `k`, with a Seq turn next. -/
def identifying (k : Nat) (d : Draw) : State :=
  { State.reset with busy := true, cur := some .identify, upc := k, script := [.seq d] }

/-- `WREG a, v` inside its frame, with a Seq turn next. -/
def inFrame (a : Nibble) (v : Byte) (k : Nat) (d : Draw) : State :=
  { running (.wreg a v) k d with cs1 := .asserted }

/-- `FORWARD 0x123456` polling its armed transfer, with this input next. -/
def armed (x : Fin 4) (i : Input) : State :=
  { running (.forward 0x123456) 3 heldDraw with
    sel2 := .asserted, x2Busy := true, x2Idx := x, tx2Buf := ⟨0x12, 0x34, 0x56⟩, script := [i] }

/-- The events a step adds to an empty trace. -/
def traceOf : Host.Outcome State Fault Refusal → List Event
  | .next s => s.trace
  | _ => []

/-- A field of the next state. -/
def after {α : Type} (f : State → α) : Host.Outcome State Fault Refusal → Option α
  | .next s => some (f s)
  | _ => none

/-! ## Well-formedness -/

/-- A channel at or above `NUM_CHANNELS` is the one ill-formed term (30_encoding.md R139). -/
theorem test_acquire_ill_formed (ch : Nibble) (h : Config.numChannels ≤ ch.toNat) :
    (Instr.acquire ch).wellFormed = false := by
  simp [Instr.wellFormed]; omega

/-- V-DE16: with one channel, channel 1 is refused by the decoder. -/
theorem test_decode_refuses_channel (h : Config.numChannels = 1) :
    decodeCmd 0x70000001 = .error .errBadOperand := by
  have h1 : decodeCmd 0x70000001 =
      if (1 : Nibble).toNat < Config.numChannels then .ok (.acquire 1) else .error .errBadOperand := rfl
  rw [h1, h]; rfl

/-- V-DE17: with sixteen, channel 1 decodes. -/
theorem test_decode_channel (h : Config.numChannels = 16) :
    decodeCmd 0x70000001 = .ok (.acquire 1) := by
  have h1 : decodeCmd 0x70000001 =
      if (1 : Nibble).toNat < Config.numChannels then .ok (.acquire 1) else .error .errBadOperand := rfl
  rw [h1, h]; rfl

theorem channel_zero : (0 : Nibble).toNat < Config.numChannels := by
  simp [Config.numChannels]

theorem test_acquire_zero_well_formed : (Instr.acquire 0).wellFormed = true := by
  simp [Instr.wellFormed, Config.numChannels]

/-! ## Decoding (95_test_vectors.md 2.1) -/

theorem test_decode_nop : decodeCmd 0x00000000 = .ok .nop := by rfl

theorem test_decode_nop_reserved : decodeCmd 0x00000001 = .error .errBadOperand := by rfl

theorem test_decode_rreg : decodeCmd 0x1F000000 = .ok (.rreg 15) := by rfl

theorem test_decode_rreg_reserved : decodeCmd 0x12000001 = .error .errBadOperand := by rfl

theorem test_decode_wreg : decodeCmd 0x2A0000FF = .ok (.wreg 10 0xFF) := by rfl

theorem test_decode_wreg_reserved : decodeCmd 0x2A000100 = .error .errBadOperand := by rfl

theorem test_decode_opcode : decodeCmd 0x30000015 = .ok (.opcode 0x15) := by rfl

theorem test_decode_opcode_reserved : decodeCmd 0x310000FC = .error .errBadOperand := by rfl

theorem test_decode_rdata : decodeCmd 0x40000000 = .ok .rdata := by rfl

theorem test_decode_rdata_reserved : decodeCmd 0x40000001 = .error .errBadOperand := by rfl

theorem test_decode_identify : decodeCmd 0x50000000 = .ok .identify := by rfl

theorem test_decode_configure : decodeCmd 0x60000000 = .ok .configure := by rfl

theorem test_decode_acquire : decodeCmd 0x70000000 = .ok (.acquire 0) := by rfl

theorem test_decode_acquire_reserved : decodeCmd 0x70000010 = .error .errBadOperand := by rfl

theorem test_decode_forward : decodeCmd 0x80FFFFFF = .ok (.forward 0xFFFFFF) := by rfl

theorem test_decode_forward_reserved : decodeCmd 0x81000000 = .error .errBadOperand := by rfl

theorem test_decode_reset_pulse : decodeCmd 0x90000000 = .ok .resetPulse := by rfl

theorem test_decode_reset_pulse_reserved : decodeCmd 0x90000001 = .error .errBadOperand := by rfl

theorem test_decode_wait : decodeCmd 0xA00003E8 = .ok (.wait 1000) := by rfl

theorem test_decode_illegal : decodeCmd 0xB0000000 = .error .errIllegalOp := by rfl

theorem test_decode_illegal_top : decodeCmd 0xFFFFFFFF = .error .errIllegalOp := by rfl

theorem test_decode_sync : decodeWord 0x300000FC = .ok .sync := by rfl

theorem test_decode_wakeup : decodeWord 0x30000000 = .ok .wakeup := by rfl

/-! Wire opcodes (30_encoding.md R132; 95_test_vectors.md 2.2). -/

theorem test_decode_wire :
    decodeWire 0x10 = some (.wireRreg 0) ∧ decodeWire 0x1F = some (.wireRreg 15) ∧
    decodeWire 0x50 = some (.wireWreg 0) ∧ decodeWire 0x5F = some (.wireWreg 15) ∧
    decodeWire 0xFC = some .wireSync ∧ decodeWire 0x00 = some .wireWakeup ∧
    decodeWire 0x01 = some .wireRdata ∧ decodeWire 0x20 = none ∧ decodeWire 0xFD = none := by decide

/-! Encodings, the other way. -/

theorem test_encode :
    encode .nop = (32, 0x00000000) ∧ encode (.rreg 15) = (32, 0x1F000000) ∧
    encode (.wreg 10 0xFF) = (32, 0x2A0000FF) ∧ encode (.opcode 0x15) = (32, 0x30000015) ∧
    encode .rdata = (32, 0x40000000) ∧ encode .identify = (32, 0x50000000) ∧
    encode .configure = (32, 0x60000000) ∧ encode (.acquire 1) = (32, 0x70000001) ∧
    encode (.forward 0xFFFFFF) = (32, 0x80FFFFFF) ∧ encode .resetPulse = (32, 0x90000000) ∧
    encode (.wait 1000) = (32, 0xA00003E8) ∧ encode .sync = (32, 0x300000FC) ∧
    encode .wakeup = (32, 0x30000000) ∧ encode (.wireRreg 2) = (8, 0x12) ∧
    encode (.wireWreg 2) = (8, 0x52) := by decide

/-! A placed word is decoded and run by the next step. -/

theorem test_placed_word_runs :
    after (fun s => s.err) (step (State.reset.withFetchWord 32 0x12000000)) = some .errNotIdentified ∧
    after (fun s => s.cur) (step (State.reset.withFetchWord 32 0x50000000)) =
      some (some .identify) := by decide

theorem test_placed_wire_opcode_runs :
    traceOf (step (State.reset.withFetchWord 8 0xFC)) = [.x1 0xFC 0x00 false] := by rfl

/-! ## One step of each command (95_test_vectors.md 2.4 to 2.10) -/

/-- V-RR3: the fourth byte is kept, the wire opcode is 0x12. -/
theorem test_rreg_keeps_fourth :
    after (fun s => s.rxBuf) (exec (.rreg 2) (running (.rreg 2) 6 (calmDraw 0x5A))) =
      some ⟨0x5A, 0x00, 0x00⟩ := by rfl

theorem test_rreg_opcode :
    traceOf (exec (.rreg 2) (running (.rreg 2) 3 (calmDraw 0xAA))) = [.x1 0x12 0xAA false] := by rfl

/-- V-RR4: `DRDY` high holds. -/
theorem test_rreg_held : exec (.rreg 2) (running (.rreg 2) 0 heldDraw) =
    .next (running (.rreg 2) 0 heldDraw) := by rfl

/-- V-WR3 and V-WR4: the frame's opcode and value bytes; no gate. -/
theorem test_wreg_opcode :
    traceOf (exec (.wreg 3 0xE0) (inFrame 3 0xE0 1 (calmDraw 0))) = [.x1 0x53 0 false] := by rfl

theorem test_wreg_value :
    traceOf (exec (.wreg 3 0xE0) (inFrame 3 0xE0 3 (calmDraw 0))) = [.x1 0xE0 0 false] := by rfl

/-- V-OP4: a bare opcode is sent as it is. -/
theorem test_opcode_sends :
    traceOf (exec (.opcode 0x15) (running (.opcode 0x15) 1 (calmDraw 7))) = [.x1 0x15 7 false] := by
  rfl

/-- V-OP1, V-OP2. -/
theorem test_sync_sends :
    traceOf (exec .sync (running (.opcode 0xFC) 1 (calmDraw 7))) = [.x1 0xFC 7 false] := by rfl

theorem test_wakeup_sends :
    traceOf (exec .wakeup (running (.opcode 0x00) 1 (calmDraw 7))) = [.x1 0x00 7 false] := by rfl

/-- 2.6, status byte 0x5F: ID 5, not the low nibble; the banner fails; the block halts. -/
theorem test_identify_takes_top_nibble :
    after (fun s => s.idNibble)
      (exec .identify { identifying 11 (calmDraw 0) with rxdata := 0x5F }) = some 5 := by rfl

theorem test_identify_halts :
    after (fun s => (s.idst, s.err))
      (exec .identify { identifying 13 (calmDraw 0) with idNibble := 5 }) =
      some (.halted, .errIdMismatch) := by rfl

/-- V-CF1: the count byte is 3, and the settle is one unit. -/
theorem test_configure_count :
    traceOf (exec .configure (running .configure 3 (calmDraw 0))) = [.x1 0x03 0 false] := by rfl

theorem test_configure_settles :
    traceOf (exec .configure (running .configure 9 (calmDraw 0))) = [.delay 1] := by rfl

/-- V-RD6 and V-RD7: the first received byte is the least significant. -/
theorem test_rdata_decodes :
    after (fun s => s.sample)
      (exec .rdata { running .rdata 9 (calmDraw 0) with rxBuf := ⟨0x56, 0x34, 0x12⟩ }) =
      some 0x123456 := by rfl

theorem test_rdata_order_matters :
    after (fun s => s.sample)
      (exec .rdata { running .rdata 9 (calmDraw 0) with rxBuf := ⟨0x12, 0x34, 0x56⟩ }) =
      some 0x563412 := by rfl

/-- P2, micro-pc 24 and 27: the sample is armed most significant byte first, and reported. -/
theorem test_acquire_arms :
    traceOf (exec (.acquire 0)
      { running (.acquire 0) 24 (calmDraw 0) with sample := 0x123456, sel2 := .asserted }) =
      [.arm2 0x12 0x34 0x56] := by rfl

theorem test_acquire_reports :
    traceOf (exec (.acquire 0) { running (.acquire 0) 27 (calmDraw 0) with sample := 0x123456 }) =
      [.tele (.sampleOut 0x123456)] := by rfl

/-- V-FW4, and V-FW11's held `IRQWAIT`. -/
theorem test_forward_arms :
    traceOf (exec (.forward 0x010203) (running (.forward 0x010203) 2 heldDraw)) =
      [.arm2 0x01 0x02 0x03] := by rfl

theorem test_forward_waits :
    exec (.forward 1) { running (.forward 1) 0 (calmDraw 0) with irqPending := true } =
      .next { running (.forward 1) 0 (calmDraw 0) with irqPending := true } := by rfl

/-- V-CT1, V-CT4, V-CT5. -/
theorem test_reset_pulse_asserts :
    traceOf (exec .resetPulse (running .resetPulse 0 heldDraw)) = [.rst .asserted] := by rfl

theorem test_reset_pulse_delays :
    traceOf (exec .resetPulse (running .resetPulse 3 heldDraw)) = [.delay 200] := by rfl

theorem test_wait_longest :
    traceOf (exec (.wait 0xFFFFFF) (running (.wait 0xFFFFFF) 0 heldDraw)) = [.delay 16777215] := by rfl

theorem test_nop_in_halted :
    after (fun s => (s.err, s.idst, s.busy)) (exec .nop (halted (.hostWrite 0 4 0))) =
      some (.errNone, .halted, true) := by rfl

/-- 2.2: the wire opcodes. -/
theorem test_wire_opcodes :
    traceOf (exec (.wireRreg 15) (running (.rreg 15) 3 (calmDraw 1))) = [.x1 0x1F 1 false] ∧
    traceOf (exec (.wireWreg 15) (inFrame 15 0 1 (calmDraw 1))) = [.x1 0x5F 1 false] ∧
    traceOf (exec .wireSync (running (.opcode 0xFC) 1 (calmDraw 1))) = [.x1 0xFC 1 false] ∧
    traceOf (exec .wireWakeup (running (.opcode 0x00) 1 (calmDraw 1))) = [.x1 0x00 1 false] ∧
    traceOf (exec .wireRdata (running .rdata 4 (calmDraw 1))) = [.x1 0x01 1 false] :=
  ⟨rfl, rfl, rfl, rfl, rfl⟩

/-! ## Acceptance (2.3), aborts (2.11), the window (2.12) -/

/-- V-AC4, V-AC7, V-AC8, V-AC10. -/
theorem test_rejections :
    traceOf (step (idle (.hostWrite 0 4 0x50000000))) =
      [.reject 0x50000000 .errAlreadyIdentified] ∧
    traceOf (step (halted (.hostWrite 0 4 0x90000000))) = [.reject 0x90000000 .errHalted] ∧
    traceOf (step (halted (.hostWrite 0 4 0xB0000000))) = [.reject 0xB0000000 .errIllegalOp] ∧
    traceOf (step { idle (.hostWrite 0 4 0xB0000000) with busy := true, cur := some .rdata }) =
      [.reject 0xB0000000 .errBusy] := ⟨rfl, rfl, rfl, rfl⟩

/-- V-AB6: the abort at `POLL2` after one byte. -/
theorem test_abort_at_poll :
    (abortWith .errUnresponsive id (armed 1 (.seq expiredDraw))).trace =
      [.disarm2, .sel2 .deasserted .seq, .abort .errUnresponsive] ∧
    (abortWith .errUnresponsive id (armed 1 (.seq expiredDraw))).idst = .ok := ⟨rfl, rfl⟩

/-- V-AB1: the abort at `GATE` leaves OK. -/
theorem test_abort_at_gate :
    (abortWith .errUnresponsive gateTimeoutEffect (running (.rreg 2) 0 expiredDraw)).trace =
      [.abort .errUnresponsive] ∧
    (abortWith .errUnresponsive gateTimeoutEffect (running (.rreg 2) 0 expiredDraw)).idst =
      .unchecked := ⟨rfl, rfl⟩

/-- V-AB3: the abort in a frame deasserts `CS1` and counts the failure. -/
theorem test_abort_in_frame :
    (abortWith .errXfer xferEffect (inFrame 1 1 2 (errorDraw 0))).trace =
      [.cs1 .deasserted, .abort .errXfer] ∧
    (abortWith .errXfer xferEffect (inFrame 1 1 2 (errorDraw 0))).failCount = 1 := ⟨rfl, rfl⟩

/-- V-HW1, V-HW2, V-HW4; V-FW12's and 2.6's `STATUS`. -/
theorem test_window_words :
    windowWord State.reset 0x04 .high = 0x00000000 ∧ windowWord State.reset 0x04 .low = 0x00010000 ∧
    windowWord State.reset 0x08 .high = 0x00000001 ∧ windowWord State.reset 0x00 .high = 0 ∧
    windowWord (armed 0 .irq) 0x04 .high = 0x0000302B ∧
    windowWord (halted .irq) 0x04 .high = 0x00005704 := by decide

/-- The ten codes in `STATUS.ERR` (60_exceptions.md R340). -/
theorem test_error_codes :
    [ErrCode.errNone, .errIllegalOp, .errBadOperand, .errBusy, .errNotIdentified, .errHalted,
      .errAlreadyIdentified, .errIdMismatch, .errUnresponsive, .errXfer].map
      (fun e => windowWord { State.reset with err := e } 0x04 .high) =
      [0x000, 0x100, 0x200, 0x300, 0x400, 0x500, 0x600, 0x700, 0x800, 0x900] := by decide

/-- V-HW3, V-HW6. -/
theorem test_register_writes :
    after (fun s => s.cirqEn) (step (idle (.hostWrite 0x08 4 0xFFFFFFFE))) = some false ∧
    after (fun s => s.sample) (step (idle (.hostWrite 0x10 4 0x12345678))) = some 0 := ⟨rfl, rfl⟩

/-- V-HW7. -/
theorem test_refused_reads :
    step (idle (.hostRead 0x02 4 .low)) = .refused (.hostAccess 0x02 4) ∧
    step (idle (.hostRead 0x04 2 .low)) = .refused (.hostAccess 0x04 2) ∧
    step (idle (.hostRead 0x20 4 .low)) = .refused (.hostAccess 0x20 4) := ⟨rfl, rfl, rfl⟩

/-- A byte address of the window, wherever it is based (20_memory.md R101). -/
theorem test_mem_read (s : State) :
    memRead s (Config.hostBase + 0x08) 4 .high = some (windowWord s 0x08 .high) ∧
    memRead s (Config.hostBase + 0x02) 4 .high = none := by
  simp [memRead, offsetOf, admitted]

/-! ## The host's side -/

/-- A line of P1 and a pseudo-instruction (30_encoding.md R143, R144). -/
theorem test_assemble_plain :
    assembleLine ['S', 'y', 'n', 'c', ' ', ';', 'x'] = some [0x300000FC] ∧
    assembleLine ['S', 'T', 'A', 'R', 'T', 'U', 'P'] =
      some [0x90000000, 0x50000000, 0x60000000] := by decide

/-- P4's first line, and an operand out of range. -/
theorem test_assemble_operands :
    assembleLine ['W', 'R', 'E', 'G', ' ', '2', ',', ' ', '0', 'x', 'A', '5'] = some [0x220000A5] ∧
    assembleLine ['R', 'R', 'E', 'G', ' ', '1', '6'] = none := by decide

/-- The boot program's first accesses (70_reset_and_hazards.md R391, R392). -/
theorem test_boot_starts :
    bootRequest (bootNext bootStart 0) .low = some (.hostWrite 0x00 4 0x90000000) := by rfl

/-! ## Witnesses: states that meet the statements' hypotheses -/

theorem fail_limit_zero : failLimitReached 0 = false := by
  unfold failLimitReached Config.maxConsecFail
  cases Config.failLimitLess1 <;> simp

/-- Idle states in OK and HALTED meet the invariant. -/
theorem idle_inv (i : Input) : Inv (idle i) := by
  constructor <;> simp [idle, State.reset, doneOps, nextMicroOp, csOpen, rstOpen, selOpen,
    fail_limit_zero, Config.expectedId]

theorem halted_inv (i : Input) : Inv (halted i) := by
  constructor <;> simp [halted, State.reset, doneOps, nextMicroOp, csOpen, rstOpen, selOpen]

/-- So do a command waiting at its first `GATE`, -/
theorem gate_inv (d : Draw) : Inv (running .configure 0 d) := by
  constructor <;> simp [running, State.reset, doneOps, nextMicroOp, csOpen, rstOpen, selOpen,
    fail_limit_zero, Config.expectedId, expand, expandConfigure, identityFits]

/-- `IDENTIFY` before its `GATE`, -/
theorem identifying_inv (d : Draw) : Inv (identifying 0 d) := by
  constructor <;> simp [identifying, State.reset, doneOps, nextMicroOp, csOpen, rstOpen, selOpen,
    fail_limit_zero, expand, expandIdentify, identityFits]

/-- a frame at its opcode byte, -/
theorem in_frame_inv (d : Draw) : Inv (inFrame 1 1 1 d) := by
  constructor <;> simp [inFrame, running, State.reset, doneOps, nextMicroOp, csOpen, rstOpen, selOpen,
    fail_limit_zero, Config.expectedId, expand, expandWreg, wregFrame, frame, identityFits]

/-- a frame at a byte that is kept, -/
theorem keeping_inv (d : Draw) :
    Inv { running .rdata 7 d with cs1 := .asserted } := by
  constructor <;> simp [running, State.reset, doneOps, nextMicroOp, csOpen, rstOpen, selOpen,
    fail_limit_zero, Config.expectedId, expand, expandRdata, readDataOps, rdataFrame, frame,
    identityFits]

/-- and a push at its poll, armed or complete. -/
theorem armed_inv (i : Input) : Inv (armed 2 i) := by
  constructor <;> simp [armed, running, State.reset, doneOps, nextMicroOp, csOpen, rstOpen, selOpen,
    fail_limit_zero, Config.expectedId, expand, expandForward, pushOps, identityFits]

theorem complete_inv (d : Draw) : Inv { running (.forward 1) 3 d with sel2 := .asserted } := by
  constructor <;> simp [running, State.reset, doneOps, nextMicroOp, csOpen, rstOpen, selOpen,
    fail_limit_zero, Config.expectedId, expand, expandForward, pushOps, identityFits]

theorem witness_DecodeOfEncode : (Instr.acquire 0).wellFormed = true ∧
    (Instr.opcode 0xFC).wellFormed = true := ⟨test_acquire_zero_well_formed, rfl⟩

theorem witness_EncodeOfDecode : decodeCmd 0xAFFFFFFF = .error .errBadOperand ∧
    decodeCmd 0xA0FFFFFF = .ok (.wait 0xFFFFFF) := ⟨rfl, rfl⟩

/-- The lowest and the highest illegal word. -/
theorem witness_IllegalOp :
    (idle (.hostWrite 0 4 0xB0000000)).input = .hostWrite 0 4 0xB0000000 ∧
    (idle (.hostWrite 0 4 0xB0000000)).busy = false ∧
    0xB0000000 ≤ (0xB0000000 : Word).toNat ∧ 0xB0000000 ≤ (0xFFFFFFFF : Word).toNat :=
  ⟨rfl, rfl, by decide, by decide⟩

/-- In the first row, in `WREG`'s and in the last. -/
theorem witness_ReservedBit :
    (0x00000001 &&& 0xF0000000 = (0x00000000 : Word) ∧ 0x00000001 &&& 0xFFFFFFFF ≠ (0x00000000 : Word)) ∧
    (0x2A000100 &&& 0xF0000000 = (0x20000000 : Word) ∧ 0x2A000100 &&& 0xF0FFFF00 ≠ (0x20000000 : Word)) ∧
    (0xA1000000 &&& 0xF0000000 = (0xA0000000 : Word) ∧ 0xA1000000 &&& 0xFF000000 ≠ (0xA0000000 : Word)) ∧
    (idle (.hostWrite 0 4 0x2A000100)).input = .hostWrite 0 4 0x2A000100 ∧
    (idle (.hostWrite 0 4 0x2A000100)).busy = false := by decide

/-- A word, a running command, and a frame's opcode byte. -/
theorem witness_StepRuns :
    ((idle (.hostWrite 0 4 0x12000000)).input = .hostWrite 0 4 0x12000000 ∧
      (idle (.hostWrite 0 4 0x12000000)).busy = false ∧ decodeWord 0x12000000 = .ok (.rreg 2)) ∧
    runs (.rreg 2) (calmDraw 0) (running (.rreg 2) 0 (calmDraw 0)) ∧
    (runs (.wreg 1 1) (calmDraw 0) (inFrame 1 1 1 (calmDraw 0)) ∧
      0 < (inFrame 1 1 1 (calmDraw 0)).upc ∧
      (expand (.wreg 1 1))[(inFrame 1 1 1 (calmDraw 0)).upc - 1]? = some .csa ∧
      nextMicroOp (inFrame 1 1 1 (calmDraw 0)) = some (.xchg 0x51 .discard) ∧
      decodeWire 0x51 = some (.wireWreg 1)) :=
  ⟨⟨rfl, rfl, rfl⟩, ⟨rfl, rfl⟩, ⟨rfl, rfl⟩, by decide, rfl, rfl, rfl⟩

theorem witness_IdleSequencer :
    (idle (.seq (calmDraw 0))).input = .seq (calmDraw 0) ∧ (idle (.seq (calmDraw 0))).cur = none :=
  ⟨rfl, rfl⟩

/-- One state for each of the gate's four cases. -/
theorem witness_Acceptance :
    (commandOf .nop = some .nop ∧ (halted (.hostWrite 0 4 0)).busy = false) ∧
    (commandOf (.wait 0) = some (.wait 0) ∧ State.reset.idst ≠ .halted ∧ State.reset.busy = false) ∧
    (commandOf .identify = some .identify ∧ State.reset.idst = .unchecked) ∧
    (commandOf .sync = some (.opcode 0xFC) ∧ (idle (.hostWrite 0 4 0x300000FC)).idst = .ok ∧
      (idle (.hostWrite 0 4 0x300000FC)).input = .hostWrite 0 4 0x300000FC ∧
      (idle (.hostWrite 0 4 0x300000FC)).busy = false) := by decide

theorem witness_IdentityGate :
    ((halted (.hostWrite 0 4 0x90000000)).input = .hostWrite 0 4 0x90000000 ∧
      (halted (.hostWrite 0 4 0x90000000)).idst = .halted) ∧
    ((idle (.hostWrite 0 4 0x50000000)).idst = .ok ∧ commandOf .identify = some .identify) ∧
    ((State.reset.withFetchWord 32 0x12000000).idst = .unchecked ∧
      (State.reset.withFetchWord 32 0x12000000).input = .hostWrite 0 4 0x12000000 ∧
      (State.reset.withFetchWord 32 0x12000000).busy = false ∧
      commandOf (.rreg 2) = some (.rreg 2)) := by decide

theorem witness_Busy :
    ({ idle (.hostWrite 0 4 0x40000000) with busy := true, cur := some .rdata } : State).input =
      .hostWrite 0 4 0x40000000 ∧
    ({ idle (.hostWrite 0 4 0x40000000) with busy := true, cur := some .rdata } : State).busy = true :=
  ⟨rfl, rfl⟩

/-- A running command meets its listing statement's hypotheses at every micro-pc below the bound. -/
theorem witness_Steps (c : Cmd) (k : Nat) (m : Byte) :
    runs c (calmDraw m) (running c k (calmDraw m)) ∧ sentBy (calmDraw m) ∧ readyIn (calmDraw m) ∧
    (calmDraw m).accept = true ∧ (calmDraw m).expire = false ∧
    (running c k (calmDraw m)).upc = k ∧
    (running c k (calmDraw m)).irqPending = false ∧ (running c k (calmDraw m)).x2Busy = false :=
  ⟨⟨rfl, rfl⟩, ⟨rfl, rfl⟩, ⟨rfl, rfl⟩, rfl, rfl, rfl, rfl, rfl⟩

/-- R402: `ACQUIRE`'s ungated `CSA` under draws on which everything that can hold would. -/
theorem witness_UngatedSelect :
    runs (.acquire 0) heldDraw (running (.acquire 0) 0 heldDraw) ∧
    (running (.acquire 0) 0 heldDraw).upc = 0 ∧
    0 ∉ [1, 2, 3, 6, 9, 15, 16, 17, 18] := ⟨⟨rfl, rfl⟩, rfl, by decide⟩

/-- The highest micro-pc of each listing is the one of its `FINISH`. -/
theorem witness_last_steps :
    ([(.nop, 0), (.wait 0xFFFFFF, 1), (.resetPulse, 4), (.rreg 15, 10), (.wreg 15 0xFF, 5),
      (.opcode 0xFC, 3), (.identify, 14), (.configure, 10), (.rdata, 11), (.acquire 0, 28),
      (.forward 0xFFFFFF, 5)] : List (Cmd × Nat)).all
      (fun p => (expand p.1)[p.2]? == some .finish) = true := by rfl

/-- The two conditions on a push, at the micro-pcs they speak of. -/
theorem witness_PushSteps :
    (runs (.forward 1) (calmDraw 0) (running (.forward 1) 0 (calmDraw 0)) ∧
      (running (.forward 1) 0 (calmDraw 0)).irqPending = false) ∧
    (runs (.acquire 0) (calmDraw 0) (running (.acquire 0) 25 (calmDraw 0)) ∧
      (running (.acquire 0) 25 (calmDraw 0)).x2Busy = false) :=
  ⟨⟨⟨rfl, rfl⟩, rfl⟩, ⟨rfl, rfl⟩, rfl⟩

theorem witness_WireOpcodes :
    (inFrame 1 1 1 (calmDraw 0)).input = .seq (calmDraw 0) ∧ (calmDraw 0).grant = true ∧
    (calmDraw 0).xerr = false := ⟨rfl, rfl, rfl⟩

/-- One state for each micro-operation that holds. -/
theorem witness_Held :
    (runs (.wreg 1 1) heldDraw (inFrame 1 1 1 heldDraw) ∧
      nextMicroOp (inFrame 1 1 1 heldDraw) = some (.xchg 0x51 .discard) ∧ heldDraw.grant = false) ∧
    (nextMicroOp (running .configure 0 heldDraw) = some .gate ∧ heldDraw.drdy = .high ∧
      heldDraw.expire = false) ∧
    (nextMicroOp (running (.acquire 0) 27 heldDraw) = some (.tele .sampleOut) ∧
      nextMicroOp (identifying 12 heldDraw) = some .teleBanner ∧ heldDraw.accept = false) ∧
    nextMicroOp { running (.forward 1) 0 heldDraw with irqPending := true } = some .irqwait ∧
    (nextMicroOp (armed 0 (.seq heldDraw)) = some .poll2 ∧
      (armed 0 (.seq heldDraw)).x2Busy = true) :=
  ⟨⟨⟨rfl, rfl⟩, rfl, rfl⟩, ⟨rfl, rfl, rfl⟩, ⟨rfl, rfl, rfl⟩, rfl, rfl, rfl⟩

/-- At a `GATE`: the timeout taken, and not. -/
theorem witness_Gate :
    (Inv (running .configure 0 expiredDraw) ∧ runs .configure expiredDraw (running .configure 0 expiredDraw) ∧
      nextMicroOp (running .configure 0 expiredDraw) = some .gate ∧ expiredDraw.expire = true) ∧
    (Inv (running .configure 0 (calmDraw 0)) ∧
      runs .configure (calmDraw 0) (running .configure 0 (calmDraw 0)) ∧
      nextMicroOp (running .configure 0 (calmDraw 0)) = some .gate) ∧
    (Inv (identifying 0 expiredDraw) ∧ runs .identify expiredDraw (identifying 0 expiredDraw) ∧
      nextMicroOp (identifying 0 expiredDraw) = some .gate) :=
  ⟨⟨gate_inv _, ⟨rfl, rfl⟩, rfl, rfl⟩, ⟨gate_inv _, ⟨rfl, rfl⟩, rfl⟩, identifying_inv _, ⟨rfl, rfl⟩, rfl⟩

/-- At a `POLL2`: the transfer armed, and complete. -/
theorem witness_SecondaryPoll :
    (Inv (armed 2 (.seq expiredDraw)) ∧ runs (.forward 0x123456) expiredDraw (armed 2 (.seq expiredDraw)) ∧
      nextMicroOp (armed 2 (.seq expiredDraw)) = some .poll2) ∧
    (Inv { running (.forward 1) 3 (calmDraw 0) with sel2 := .asserted } ∧
      nextMicroOp { running (.forward 1) 3 (calmDraw 0) with sel2 := .asserted } = some .poll2) :=
  ⟨⟨armed_inv _, ⟨rfl, rfl⟩, rfl⟩, complete_inv _, rfl⟩

/-- A discarded byte and the last kept one, with the error flag. -/
theorem witness_Exchange :
    (Inv (inFrame 1 1 1 (errorDraw 0)) ∧ runs (.wreg 1 1) (errorDraw 0) (inFrame 1 1 1 (errorDraw 0)) ∧
      nextMicroOp (inFrame 1 1 1 (errorDraw 0)) = some (.xchg 0x51 .discard) ∧
      (errorDraw 0).grant = true ∧ (errorDraw 0).xerr = true) ∧
    (Inv { running .rdata 7 (errorDraw 9) with cs1 := .asserted } ∧
      nextMicroOp { running .rdata 7 (errorDraw 9) with cs1 := .asserted } =
        some (.xchg Config.rxFill (.rx 2))) :=
  ⟨⟨in_frame_inv _, ⟨rfl, rfl⟩, rfl, rfl, rfl⟩, keeping_inv _, rfl⟩

/-- A step that is no block reset, from states that meet the invariant, in OK and in HALTED. -/
theorem witness_StepNext :
    (Inv (idle (.remote 9)) ∧ (idle (.remote 9)).idst = .ok ∧ (idle (.remote 9)).input ≠ .blockReset ∧
      ∃ t, step (idle (.remote 9)) = .next t) ∧
    (Inv (halted (.hostWrite 0 4 0x90000000)) ∧ (halted (.hostWrite 0 4 0x90000000)).idst = .halted ∧
      (halted (.hostWrite 0 4 0x90000000)).input ≠ .blockReset ∧
      ∃ t, step (halted (.hostWrite 0 4 0x90000000)) = .next t) ∧
    (Inv (inFrame 1 1 1 heldDraw) ∧ ∃ t, step (inFrame 1 1 1 heldDraw) = .next t) :=
  ⟨⟨idle_inv _, rfl, by decide, _, rfl⟩, ⟨halted_inv _, rfl, by decide, _, rfl⟩, in_frame_inv _, _, rfl⟩

theorem witness_Handler :
    (idle .irq).input = .irq ∧ ({ idle .irq with irqPending := true } : State).irqPending = true :=
  ⟨rfl, rfl⟩

theorem witness_RemoteClocks (x : Fin 4) :
    (armed x (.remote 0)).input = .remote 0 ∧ (armed x (.remote 0)).x2Busy = true ∧
    (armed x (.remote 0)).x2Idx = x := ⟨rfl, rfl, rfl⟩

theorem witness_RemoteStray :
    (idle (.remote 7)).input = .remote 7 ∧ (idle (.remote 7)).x2Busy = false := ⟨rfl, rfl⟩

theorem witness_DeassertOrders :
    ({ running (.forward 1) 4 (calmDraw 0) with irqPending := true } : State).cur = some (.forward 1) ∧
    ({ running (.forward 1) 4 (calmDraw 0) with irqPending := true } : State).upc = 4 ∧
    ({ running (.forward 1) 4 (calmDraw 0) with irqPending := true } : State).irqPending = true ∧
    ({ running (.acquire 0) 26 (calmDraw 0) with irqPending := true } : State).cur =
      some (.acquire 0) ∧
    ({ running (.acquire 0) 26 (calmDraw 0) with irqPending := true } : State).upc = 26 ∧
    ({ running (.acquire 0) 26 (calmDraw 0) with irqPending := true } : State).irqPending = true ∧
    (calmDraw 0).accept = true := ⟨rfl, rfl, rfl, rfl, rfl, rfl, rfl⟩

/-- The runs' starts: idle, in OK, `CIRQ_EN` set, nothing pending, any script. -/
theorem witness_Runs (inputs : List Input) :
    ({ idle .irq with script := inputs } : State).busy = false ∧
    ({ idle .irq with script := inputs } : State).idst = .ok ∧
    ({ idle .irq with script := inputs } : State).cirqEn = true ∧
    ({ idle .irq with script := inputs } : State).irqPending = false ∧
    ({ idle .irq with script := inputs } : State).script = inputs ∧
    (0 : Nibble).toNat < Config.numChannels ∧ (calmDraw 0).expire = false ∧
    ({ idle .irq with cirqEn := false } : State).cirqEn = false :=
  ⟨rfl, rfl, rfl, rfl, rfl, channel_zero, rfl, rfl⟩

/-- `IDENTIFY`'s start: UNCHECKED after reset, and after a `GATE`'s timeout in OK (R350). -/
theorem witness_IdentifyRun (inputs : List Input) :
    ({ State.reset with script := inputs } : State).busy = false ∧
    ({ State.reset with script := inputs } : State).idst = .unchecked ∧
    (abortWith .errUnresponsive gateTimeoutEffect (running .configure 0 expiredDraw)).busy = false ∧
    (abortWith .errUnresponsive gateTimeoutEffect (running .configure 0 expiredDraw)).idst =
      .unchecked := ⟨rfl, rfl, rfl, rfl⟩

/-- A push from its `SELA` to its `FINISH`: `k` turns of `Seq` after the handler's. -/
def pushStream (k : Nat) (n : Nat) : Input :=
  (([.seq (calmDraw 0), .seq (calmDraw 0), .remote 0, .remote 0, .remote 0, .irq] : List Input)
    ++ List.replicate k (.seq (calmDraw 0)))[n]?.getD .irq

theorem witness_PushCarries :
    .sela ∉ doneOps (running (.forward 0x123456) 1 (calmDraw 0)) ∧
    after (fun s => s.trace) (runOn (pushStream 3) 9 (running (.forward 0x123456) 1 (calmDraw 0))) =
      some ([.sel2 .asserted .seq, .arm2 0x12 0x34 0x56, .x2 0x12 false, .x2 0x34 false,
        .x2 0x56 false, .done2, .sel2 .deasserted .irq, .sel2 .deasserted .seq] ++ [.finish]) ∧
    .sela ∉ doneOps (running (.acquire 0) 23 (calmDraw 0)) ∧
    after (fun s => (s.sample, s.trace))
        (runOn (pushStream 4) 10 { running (.acquire 0) 23 (calmDraw 0) with sample := 0x123456 }) =
      some (0x123456, [.sel2 .asserted .seq, .arm2 0x12 0x34 0x56, .x2 0x12 false, .x2 0x34 false,
        .x2 0x56 false, .done2, .sel2 .deasserted .irq, .sel2 .deasserted .seq,
        .tele (.sampleOut 0x123456)] ++ [.finish]) :=
  ⟨by decide, rfl, by simp [doneOps, running, expand, expandAcquire, wregFrame, opcodeFrame, readDataOps,
    rdataFrame, frame, pushOps], rfl⟩

theorem witness_PushCarries_inv :
    Inv (running (.forward 0x123456) 1 (calmDraw 0)) ∧
    Inv { running (.acquire 0) 23 (calmDraw 0) with sample := 0x123456 } ∧
    ∀ j, j < 10 → pushStream 4 j ≠ .blockReset ∧ pushStream 3 j ≠ .blockReset := by
  refine ⟨?_, ?_, by decide⟩
  · constructor <;> simp [running, State.reset, doneOps, nextMicroOp, csOpen, rstOpen, selOpen,
      fail_limit_zero, Config.expectedId, expand, expandForward, pushOps, identityFits]
  · have := channel_zero
    constructor <;> simp [running, State.reset, doneOps, nextMicroOp, csOpen, rstOpen, selOpen,
      fail_limit_zero, Config.expectedId, expand, expandAcquire, wregFrame, opcodeFrame, readDataOps,
      rdataFrame, frame, pushOps, identityFits]
    exact this

theorem witness_BlockReset : (idle .blockReset).input = .blockReset := rfl

/-- Every offset of the window is admitted. -/
theorem witness_HostRead :
    (idle (.hostRead 0x04 4 .low)).input = .hostRead 0x04 4 .low ∧
    [0x00, 0x04, 0x08, 0x0C, 0x10, 0x14, 0x18, 0x1C].all (fun off => admitted off 4) = true :=
  ⟨rfl, by decide⟩

theorem witness_RegisterWrite (off : Int) :
    (idle (.hostWrite off 4 1)).input = .hostWrite off 4 1 := rfl

theorem witness_OddAccess (off : Int) (n : Nat) :
    (idle (.hostRead off n .low)).input = .hostRead off n .low ∧
    (idle (.hostWrite off n 0)).input = .hostWrite off n 0 := ⟨rfl, rfl⟩

/-- From reset, nothing and then one byte clocked. -/
theorem witness_SelectFollows :
    Host.Core.run core 1 { State.reset with script := [.remote 1] } =
      .next { State.reset with tick := 1, trace := [.x2 1 true] } ∧
    ({ State.reset with tick := 1, trace := [.x2 1 true] } : State).busy = false := ⟨rfl, rfl⟩

/-- From reset: identification with status byte 0x30, then a push up to its arming. -/
theorem witness_Sel2Held :
    after (fun s => s.x2Busy) (Host.Core.run core 20 { State.reset with
      script := .hostWrite 0 4 0x50000000 :: (List.replicate 15 (.seq (calmDraw 0x30))
        ++ .hostWrite 0 4 0x80000001 :: List.replicate 3 (.seq (calmDraw 0x30))) }) = some true := by
  rw [run_accept (c := .identify) rfl rfl rfl rfl]
  iterate 15 rw [run_seq (c := .identify) rfl rfl rfl]
  rw [run_accept (c := .forward 1) rfl rfl rfl rfl]
  iterate 3 rw [run_seq (c := .forward 1) rfl rfl rfl]
  rfl

/-- One form of each frame's family answers a next state, in both of a command's parts. -/
theorem witness_Frames :
    (∃ t, exec .configure (running .configure 4 (calmDraw 0)) = .next t) ∧
    (∃ t, exec .sync (idle (.hostWrite 0 4 0x300000FC)) = .next t) ∧
    (∃ t, exec (.rreg 2) (running (.rreg 2) 9 (calmDraw 0)) = .next t) ∧
    (∃ t, exec .rdata (running .rdata 9 (calmDraw 0)) = .next t) ∧
    (∃ t, exec .identify (identifying 13 (calmDraw 0)) = .next t) ∧
    (∃ t, exec .resetPulse (running .resetPulse 2 (calmDraw 0)) = .next t) ∧
    (∃ t, exec (.forward 1) (running (.forward 1) 2 (calmDraw 0)) = .next t) ∧
    (∃ t, exec (.acquire 0) (running (.acquire 0) 20 (calmDraw 0)) = .next t) ∧
    (commandOf .wireSync = none ∧
      ∃ t, exec .wireSync (running (.opcode 0xFC) 1 (calmDraw 0)) = .next t) :=
  ⟨⟨_, rfl⟩, ⟨_, rfl⟩, ⟨_, rfl⟩, ⟨_, rfl⟩, ⟨_, rfl⟩, ⟨_, rfl⟩, ⟨_, rfl⟩, ⟨_, rfl⟩, rfl, _, rfl⟩

/-- And from states that meet the invariant. -/
theorem witness_FramesInv :
    (Inv (running .configure 0 (calmDraw 0)) ∧
      ∃ t, exec .configure (running .configure 0 (calmDraw 0)) = .next t) ∧
    (Inv (identifying 0 (calmDraw 0)) ∧
      ∃ t, exec .identify (identifying 0 (calmDraw 0)) = .next t) ∧
    (Inv (armed 2 (.seq heldDraw)) ∧
      ∃ t, exec (.forward 0x123456) (armed 2 (.seq heldDraw)) = .next t) ∧
    (Inv (inFrame 1 1 1 (calmDraw 0)) ∧
      nextMicroOp (inFrame 1 1 1 (calmDraw 0)) = some (.xchg 0x51 .discard) ∧
      ∃ t, exec (.wireWreg 1) (inFrame 1 1 1 (calmDraw 0)) = .next t) :=
  ⟨⟨gate_inv _, _, rfl⟩, ⟨identifying_inv _, _, rfl⟩, ⟨armed_inv _, _, rfl⟩, in_frame_inv _, rfl, _, rfl⟩

theorem witness_FramesHold : csOpen ((expand (.wreg 1 1)).take 1) = true := rfl

/-- Status words with `BUSY` = 0 in OK and in HALTED (95_test_vectors.md 2.6), and the step to
`CONFIGURE`. -/
theorem witness_Boot :
    ((bootNext ⟨.identify, .pollAfter⟩ 0x00003002).phase = .configure ∧
      (⟨.identify, .pollAfter⟩ : Boot).phase ≠ .configure) ∧
    ((0x00003002 : Word).getLsbD 0 = false ∧ (0x00003002 : Word).extractLsb' 1 2 = 1) ∧
    ((0x00005704 : Word).getLsbD 0 = false ∧ (0x00005704 : Word).extractLsb' 1 2 ≠ 1) := by decide

/-- The stream that gives `Seq`, `Remote` and `Irq` the turn in rotation, with calm draws. -/
def fairStream (n : Nat) : Input :=
  if n % 3 = 0 then .seq (calmDraw 0) else if n % 3 = 1 then .remote 0 else .irq

theorem witness_FairRuns : Inv (armed 2 .irq) ∧ XportFair fairStream ∧ TeleFair fairStream ∧
    DeviceFair fairStream ∧ PushFair fairStream ∧ Undisturbed fairStream := by
  have h0 : ∀ k, fairStream (3 * k) = .seq (calmDraw 0) := fun k => by simp [fairStream]
  have h1 : ∀ k, fairStream (3 * k + 1) = .remote 0 := fun k => by simp [fairStream]
  have h2 : ∀ k, fairStream (3 * k + 2) = .irq := fun k => by simp [fairStream]
  refine ⟨armed_inv _, fun k => ⟨3 * k, _, by omega, h0 k, rfl⟩, fun k => ⟨3 * k, _, by omega, h0 k, rfl⟩,
    fun k => ⟨3 * k, _, by omega, h0 k, rfl⟩,
    ⟨fun k => ⟨3 * k + 1, _, by omega, h1 k⟩, fun k => ⟨3 * k + 2, by omega, h2 k⟩⟩, ?_⟩
  intro n
  unfold fairStream
  split_ifs <;> simp

end Sys2Proof.Tests
end

section
/-! What one step can answer, said once for every agent; from it that the invariant excludes the faults, and
that the trace only grows. -/

namespace Sys2Proof.Machine

/-! ## Inversion of a step -/

/-- Why a word written to `CMD` is rejected with `e`: the block is busy, the word does not decode, or the
identity state does not allow its command (60_exceptions.md R342 to R344). -/
def rejects (s : State) (w : Word) (e : ErrCode) : Prop :=
  (s.busy = true ∧ e = .errBusy) ∨
  (s.busy = false ∧ (decodeCmd w = .error e ∨ ∃ c, decodeCmd w = .ok c ∧ idGate s.idst c = some e))

/-- Everything the step of `s` can answer, one constructor for each kind of step an agent takes. -/
inductive StepAnswers (s : State) : Host.Outcome State Fault Refusal → Prop where
  /-- An access the window does not allow (20_memory.md R103). -/
  | refusedAccess (off : Int) (n : Nat)
      (h : (∃ drdy, s.input = .hostRead off n drdy) ∨ ∃ w, s.input = .hostWrite off n w)
      (ha : admitted off n = false) : StepAnswers s (.refused (.hostAccess off n))
  /-- An admitted read (R102). -/
  | hostRead (off : Int) (n : Nat) (drdy : Drdy) (h : s.input = .hostRead off n drdy)
      (ha : admitted off n = true) :
      StepAnswers s (.next (State.advance { s with hostOut := some (windowWord s off drdy) }))
  /-- A word written to `CMD` and rejected, for the reason `rejects` names (60_exceptions.md R343). -/
  | rejectedWord (w : Word) (e : ErrCode) (h : s.input = .hostWrite 0 4 w) (he : rejects s w e) :
      StepAnswers s (.next (rejectWord w e s).advance)
  /-- A word written to `CMD` and accepted (R342). -/
  | acceptedWord (w : Word) (c : Cmd) (h : s.input = .hostWrite 0 4 w) (hd : decodeCmd w = .ok c)
      (hb : s.busy = false) (hg : idGate s.idst c = none) :
      StepAnswers s (.next (State.advance { s with
        cur := some c, upc := 0, busy := true, err := .errNone, trace := s.trace ++ [.accept w] }))
  /-- A write to another offset of the window (20_memory.md R104). -/
  | otherWrite (off : Int) (v : Word) (h : s.input = .hostWrite off 4 v)
      (ha : admitted off 4 = true) (h0 : off ≠ 0) :
      StepAnswers s (.next (registerWrite off v s).advance)
  /-- A Seq turn with no command latched (40_bus_transaction.md R170). -/
  | idleTurn (d : Draw) (h : s.input = .seq d) (hc : s.cur = none) : StepAnswers s (.next s.advance)
  /-- A Seq turn of a running command (R170). -/
  | microOp (d : Draw) (c : Cmd) (op : MicroOp) (h : s.input = .seq d) (hc : s.cur = some c)
      (hop : (expand c)[s.upc]? = some op) : StepAnswers s (.next (perform op d s).advance)
  /-- A Seq turn past the end of the running command (log entry 13). -/
  | pastExpansion (d : Draw) (c : Cmd) (h : s.input = .seq d) (hc : s.cur = some c)
      (hop : (expand c)[s.upc]? = none) : StepAnswers s (.fault .microPcOutOfRange)
  /-- The completion handler's turn (60_exceptions.md R352). -/
  | handler (h : s.input = .irq) : StepAnswers s (.next (irqStep s).advance)
  /-- A clock with nothing armed (44_forwarding.md R299). -/
  | strayByte (r : Byte) (h : s.input = .remote r) (hx : s.x2Busy = false) :
      StepAnswers s (.next (s.emit (.x2 r true)).advance)
  /-- A clock of an armed transfer before its last byte (R299). -/
  | armedByte (r b : Byte) (h : s.input = .remote r) (hx : s.x2Busy = true)
      (hb : byteAt s.tx2Buf s.x2Idx.val = some b) (hi : s.x2Idx ≠ 2) :
      StepAnswers s (.next (State.advance { s with
        x2Idx := s.x2Idx + 1, trace := s.trace ++ [.x2 b false] }))
  /-- The clock of the last byte, which completes the transfer (R300). -/
  | lastByte (r b : Byte) (h : s.input = .remote r) (hx : s.x2Busy = true)
      (hb : byteAt s.tx2Buf s.x2Idx.val = some b) (hi : s.x2Idx = 2) :
      StepAnswers s (.next (State.advance { s with
        x2Idx := 3, x2Busy := false, irqPending := s.irqPending || s.cirqEn
        trace := s.trace ++ [.x2 b false, .done2] }))
  /-- A clock of an armed transfer whose bytes are all out (log entry 13). -/
  | pastLastByte (r : Byte) (h : s.input = .remote r) (hx : s.x2Busy = true)
      (hb : byteAt s.tx2Buf s.x2Idx.val = none) : StepAnswers s (.fault .armedIndexOutOfRange)
  /-- Block reset (70_reset_and_hazards.md R380). -/
  | blockReset (h : s.input = .blockReset) : StepAnswers s (.next s.blockReset.advance)

/-- A host write is refused, rejected, accepted, or goes to another register than `CMD`. -/
theorem stepAnswers_hostWrite {s : State} {off : Int} {n : Nat} {w : Word}
    (h : s.input = .hostWrite off n w) : StepAnswers s (step s) := by
  cases ha : admitted off n with
  | false => rw [step_refusedWrite h ha]; exact .refusedAccess off n (.inr ⟨w, h⟩) ha
  | true =>
    obtain ⟨rfl, -⟩ := (admitted_iff off n).1 ha
    by_cases h0 : off = 0
    · subst h0
      rw [step_cmdWrite h]
      cases hb : s.busy with
      | true => exact .rejectedWord w _ h (.inl ⟨hb, rfl⟩)
      | false =>
        cases hd : decodeCmd w with
        | error e => exact .rejectedWord w e h (.inr ⟨hb, .inl hd⟩)
        | ok c =>
          rcases acceptCmd_cases w c s with ⟨ht, -⟩ | ⟨e, -, hg, he⟩ | ⟨-, hg, he⟩
          · exact absurd ht (by simp [hb])
          · simpa [he] using StepAnswers.rejectedWord w e h (.inr ⟨hb, .inr ⟨c, hd, hg⟩⟩)
          · simpa [he] using StepAnswers.acceptedWord w c h hd hb hg
    · rw [step_registerWrite h ha h0]
      exact .otherWrite off w h ha h0

/-- A clock of the responder sends a stray or an armed byte, or finds none left. -/
theorem stepAnswers_remote {s : State} {r : Byte} (h : s.input = .remote r) :
    StepAnswers s (step s) := by
  rw [step_remote h]
  rcases remoteStep_cases r s with ⟨hx, e⟩ | ⟨b, hx, hb, hi, e⟩ | ⟨b, hx, hb, hi, e⟩ | ⟨hx, hb, e⟩ <;>
    rw [e]
  · exact .strayByte r h hx
  · exact .armedByte r b h hx hb hi
  · exact .lastByte r b h hx hb hi
  · exact .pastLastByte r h hx hb

/-- Every step's answer is one of these. -/
theorem stepAnswers_step (s : State) : StepAnswers s (step s) := by
  cases h : s.input with
  | hostRead off n drdy =>
    rw [step_hostRead h, hostReadStep]
    split
    · next ha => exact .hostRead off n drdy h ha
    · next ha => exact .refusedAccess off n (.inl ⟨drdy, h⟩) (by simpa using ha)
  | hostWrite off n w => exact stepAnswers_hostWrite h
  | seq d =>
    cases hc : s.cur with
    | none => rw [step_seq_idle h hc]; exact .idleTurn d h hc
    | some c =>
      rw [step_seq h hc]
      rcases performAt_cases (expand c) d s with ⟨op, hop, e⟩ | ⟨hop, e⟩ <;> rw [e]
      · exact .microOp d c op h hc hop
      · exact .pastExpansion d c h hc hop
  | irq => rw [step_irq h]; exact .handler h
  | remote r => exact stepAnswers_remote h
  | blockReset => rw [step_blockReset h]; exact .blockReset h

/-- The same for a step whose answer has a name. -/
theorem StepAnswers.of_step {s : State} {o : Host.Outcome State Fault Refusal} (h : step s = o) :
    StepAnswers s o := h ▸ stepAnswers_step s

/-! ## The two faults -/

/-- A three-byte buffer has a byte at every index below 3. -/
theorem byteAt_ne_none (b : Bytes3) {k : Nat} (hk : k < 3) : byteAt b k ≠ none := by
  interval_cases k <;> simp [byteAt]

/-- Settles O42: each fault has a guard that `Inv` contradicts, the bound of the micro-pc or that of the
index of an armed transfer. -/
theorem invariantExcludesFaults : Obligations.InvariantExcludesFaults := by
  intro s r hinv hstep
  cases StepAnswers.of_step hstep with
  | pastExpansion _ c _ hc hop => exact absurd (hinv.upc_lt c hc) (by simpa using hop)
  | pastLastByte _ _ hx hb => exact byteAt_ne_none s.tx2Buf (hinv.armed_index hx) hb

/-! ## The trace -/

/-- Settles O46: a micro-operation appends by `perform_trace`, and every other kind of step shows what it
appends. -/
theorem traceOnlyGrows : Obligations.TraceOnlyGrows := by
  intro s t hreset hstep
  cases StepAnswers.of_step hstep with
  | blockReset h => exact absurd h hreset
  | microOp d c op _ _ _ => exact perform_trace op d s
  | handler _ => rcases irqStep_cases s with ⟨-, h⟩ | ⟨-, h⟩ <;> simp [h]
  | rejectedWord w e _ _ => exact ⟨[.reject w e], rfl⟩
  | acceptedWord w c _ _ _ _ => exact ⟨[.accept w], rfl⟩
  | strayByte r _ _ => exact ⟨[.x2 r true], rfl⟩
  | armedByte _ b _ _ _ _ => exact ⟨[.x2 b false], rfl⟩
  | lastByte _ b _ _ _ _ => exact ⟨[.x2 b false, .done2], rfl⟩
  | otherWrite off v _ _ _ => unfold registerWrite; split <;> exact ⟨[], by simp⟩
  | hostRead _ _ _ _ _ | idleTurn _ _ _ => exact ⟨[], by simp⟩

end Sys2Proof.Machine
end

section
/-! Reset: the values of the fields, and the invariant of a state in which no command runs. -/

namespace Sys2Proof.Machine

/-- Settles O35, field by field. -/
theorem resetValues : Obligations.ResetValues := by
  simp [Obligations.ResetValues, State.reset]

/-- A failure limit that is reached is set, and is not above the count (60_exceptions.md R349). -/
theorem failLimitReached_iff (n : Nat) :
    failLimitReached n = true ↔ ∃ m, Config.maxConsecFail = some m ∧ m ≤ n := by
  unfold failLimitReached
  cases Config.maxConsecFail <;> simp

/-- The failure limit, where set, is at least 1 (log entry 4). -/
theorem maxConsecFail_pos {m : Nat} (h : Config.maxConsecFail = some m) : 0 < m := by
  obtain ⟨k, -, rfl⟩ := Option.map_eq_some_iff.1 h
  exact k.succ_pos

/-- With no command and every line and transfer released, only the identity and the failure count are
left of the invariant. -/
theorem Inv.of_idle {s : State} (hcur : s.cur = none) (hupc : s.upc = 0) (hbusy : s.busy = false)
    (hcs : s.cs1 = .deasserted) (hrst : s.rst = .deasserted) (hsel : s.sel2 = .deasserted)
    (hx : s.x2Busy = false) (hid : s.idst = .ok → s.idNibble = Config.expectedId)
    (hfail : Config.checkXferErr = false → s.failCount = 0)
    (hlimit : failLimitReached s.failCount = true → s.idst = .halted) : Inv s := by
  have hdone := doneOps_none hcur
  have hnext := nextMicroOp_none hcur
  constructor
  case id_matches => exact hid
  case failures_checked => exact hfail
  case limit_halts => exact hlimit
  all_goals simp [hcur, hupc, hbusy, hcs, hrst, hsel, hx, hdone, hnext, csOpen, rstOpen]

/-- Settles O40: reset is idle, in UNCHECKED, with a failure count below every limit. -/
theorem invariantHoldsAtReset : Obligations.InvariantHoldsAtReset := by
  refine Inv.of_idle rfl rfl rfl rfl rfl rfl rfl nofun (fun _ => rfl) fun hlimit => ?_
  obtain ⟨m, hm, hle⟩ := (failLimitReached_iff _).1 hlimit
  exact absurd (maxConsecFail_pos hm) (Nat.not_lt.2 hle)

end Sys2Proof.Machine
end

section
/-! The frames of 10_state.md's fields: which commands hold the micro-operations that write a field, what
each command therefore leaves unchanged, and the frames of the families. -/

namespace Sys2Proof.Machine

open Sys2Proof.Statements

/-! ## The commands that hold a writing micro-operation -/

/-- The commands without a frame or a `GATE` of the primary bus. -/
def Cmd.offPrimary (c : Cmd) : Prop :=
  c = .nop ∨ (∃ n, c = .wait n) ∨ c = .resetPulse ∨ ∃ v, c = .forward v

/-- Which micro-operations a command does not hold: each writer of a register, a buffer or a line stands
only in the commands its field excepts. -/
structure OpAllowed (c : Cmd) (op : MicroOp) : Prop where
  /-- `SETRX` is `RREG`'s and `IDENTIFY`'s (41_register_access.md R200; 42_identification.md R230). -/
  setrx : (∀ a, c ≠ .rreg a) → c ≠ .identify → op ≠ .setrx
  /-- `DECODE` is `RDATA`'s and `ACQUIRE`'s (43_conversion.md R255, R272). -/
  decode : c ≠ .rdata → (∀ ch, c ≠ .acquire ch) → op ≠ .decode
  /-- `IDCHK` is `IDENTIFY`'s (42_identification.md R230). -/
  idchk : c ≠ .identify → op ≠ .idchk
  /-- `CLRRX` and a kept byte are the four reading commands' (R200, R230, R255, R272). -/
  keep : (∀ a, c ≠ .rreg a) → c ≠ .identify → c ≠ .rdata → (∀ ch, c ≠ .acquire ch) →
    op ≠ .clrrx ∧ ∀ b i, op ≠ .xchg b (.rx i)
  /-- `RSTA` and `RSTD` are `RESET_PULSE`'s (45_control.md R326). -/
  reset : c ≠ .resetPulse → op ≠ .rsta ∧ op ≠ .rstd
  /-- The secondary bus is `FORWARD`'s and `ACQUIRE`'s (44_forwarding.md R290; R272). -/
  push : (∀ v, c ≠ .forward v) → (∀ ch, c ≠ .acquire ch) →
    op ≠ .sela ∧ (∀ src, op ≠ .arm2 src) ∧ op ≠ .poll2 ∧ op ≠ .seld
  /-- The commands off the primary bus hold none of its micro-operations and no `IDSET` (45_control.md R320
  to R326; 44_forwarding.md R290). -/
  primary : c.offPrimary →
    op ≠ .csa ∧ op ≠ .csd ∧ (∀ b dst, op ≠ .xchg b dst) ∧ op ≠ .gate ∧ op ≠ .idset

theorem expand_allowed (c : Cmd) : ∀ op ∈ expand c, OpAllowed c op := by
  cases c <;>
    simp only [expand, expandNop, expandRreg, rregFrame, expandWreg, wregFrame, expandOpcode,
      opcodeFrame, expandRdata, readDataOps, rdataFrame, expandIdentify, expandConfigure,
      configureFrame, expandAcquire, expandForward, pushOps, expandResetPulse, expandWait, frame,
      List.cons_append, List.nil_append, List.map_cons, List.map_nil, List.take_zero, List.take_succ_cons,
      List.append_nil, List.forall_mem_cons, List.not_mem_nil, false_implies,
      implies_true, and_true] <;>
    and_intros <;>
    constructor <;> simp [Cmd.offPrimary]

/-! ## What a micro-operation leaves unchanged -/

/-- Off the primary bus, and but for `IDSET`, a micro-operation keeps the identity state, leaves or clears
the failure count, and keeps a released `CS1` released. -/
theorem perform_offPrimary (op : MicroOp) (d : Draw) (s : State) (hcsa : op ≠ .csa)
    (hx : ∀ b dst, op ≠ .xchg b dst) (hgate : op ≠ .gate) (hset : op ≠ .idset) :
    (perform op d s).idst = s.idst ∧
    ((perform op d s).failCount = s.failCount ∨ (perform op d s).failCount = 0) ∧
    (s.cs1 = .deasserted → (perform op d s).cs1 = s.cs1) := by
  cases op with
  | csa => exact absurd rfl hcsa
  | xchg b dst => exact absurd rfl (hx b dst)
  | gate => exact absurd rfl hgate
  | idset => exact absurd rfl hset
  | poll2 =>
    rcases opPoll2_cases d s with ⟨-, -, h⟩ | ⟨-, h⟩ | ⟨-, h⟩ <;> simp +contextual [perform, h, abort_poll_eq]
  | tele e => rcases opTele_cases e d s with ⟨-, h⟩ | ⟨-, h⟩ <;> simp [perform, h]
  | teleBanner =>
    rcases opTele_cases (.banner (decide (s.idNibble = Config.expectedId))) d s with ⟨-, h⟩ | ⟨-, h⟩ <;>
      simp [perform, opTeleBanner, h]
  | irqwait => rcases opIrqwait_cases s with ⟨-, h⟩ | ⟨-, h⟩ <;> simp [perform, h]
  | csd | delay | clrrx | finish | setrx | decode | idchk | rsta | rstd | sela | arm2 | seld =>
    simp +contextual [perform, opCsd, opDelay, opClrrx, opFinish, opSetrx, opDecode, opIdchk, opRsta,
      opRstd, opSela, opArm2, opSeld]

/-- Under the invariant a micro-operation outside a push keeps `SEL2` and the secondary transfer: there is
nothing an abort of it could release. -/
theorem Inv.perform_sameSecondary {s : State} {c : Cmd} {op : MicroOp} (hinv : Inv s)
    (hc : s.cur = some c) (hop : (expand c)[s.upc]? = some op) (d : Draw) (hsela : op ≠ .sela)
    (harm : ∀ src, op ≠ .arm2 src) (hpoll : op ≠ .poll2) (hseld : op ≠ .seld) :
    sameSecondary s (perform op d s) := by
  obtain ⟨hx, hs⟩ := hinv.secondary_idle hc hop harm hpoll hseld
  exact perform_secondary op d hx hs hsela harm

/-! ## What a command leaves unchanged -/

/-- Acceptance and rejection write only the latched command's fields, `ERR` and the trace. -/
theorem acceptCmd_writes (w : Word) (c : Cmd) (s : State) : ∃ busy err cur upc trace,
    acceptCmd w c s = { s with busy := busy, err := err, cur := cur, upc := upc, trace := trace } := by
  rcases acceptCmd_cases w c s with ⟨-, h⟩ | ⟨e, -, -, h⟩ | ⟨-, -, h⟩ <;> exact ⟨_, _, _, _, _, h⟩

/-- A host command that answers a next state wrote at most what acceptance writes, or performed one of its
micro-operations. -/
theorem exec_command_next {i : Instr} {c : Cmd} {s t : State} (hi : commandOf i = some c)
    (h : exec i s = .next t) :
    (∃ busy err cur upc trace,
      t = { s with busy := busy, err := err, cur := cur, upc := upc, trace := trace }) ∨
    ∃ d op, s.cur = some c ∧ (expand c)[s.upc]? = some op ∧ t = perform op d s := by
  rw [exec_eq_command hi] at h
  rcases command_cases c (expand c) s with ⟨_, _, w, -, e⟩ | ⟨d, op, -, hc, hop, e⟩ | e | e <;>
    rw [e] at h <;> cases h
  · exact .inl (acceptCmd_writes w c s)
  · exact .inr ⟨d, op, hc, hop, rfl⟩
  · exact .inl ⟨_, _, _, _, _, rfl⟩

/-- The frame of a command: each field of the block with the commands that may write it. -/
structure CommandFrame (c : Cmd) (s t : State) : Prop where
  /-- No command writes `CTRL` or the pending interrupt (10_state.md R54, R61). -/
  surroundings : sameSurroundings s t
  /-- `RXDATA` (R55). -/
  rxdata : (∀ a, c ≠ .rreg a) → c ≠ .identify → t.rxdata = s.rxdata
  /-- `SAMPLE` (R56). -/
  sample : c ≠ .rdata → (∀ ch, c ≠ .acquire ch) → t.sample = s.sample
  /-- `STATUS.ID` (R53). -/
  idNibble : c ≠ .identify → t.idNibble = s.idNibble
  /-- The receive buffer (R59). -/
  rxBuf : (∀ a, c ≠ .rreg a) → c ≠ .identify → c ≠ .rdata → (∀ ch, c ≠ .acquire ch) →
    t.rxBuf = s.rxBuf
  /-- The transmit buffer of the secondary bus (R60). -/
  tx2Buf : (∀ v, c ≠ .forward v) → (∀ ch, c ≠ .acquire ch) → t.tx2Buf = s.tx2Buf
  /-- `RST` (R45). -/
  rst : c ≠ .resetPulse → t.rst = s.rst
  /-- `SEL2` and the secondary transfer (R46, R60). -/
  secondary : (∀ v, c ≠ .forward v) → (∀ ch, c ≠ .acquire ch) → Inv s → sameSecondary s t
  /-- `IDST` (R51). -/
  idst : c.offPrimary → t.idst = s.idst
  /-- The failure count (R63), which `FINISH` clears. -/
  failCount : c.offPrimary → t.failCount = s.failCount ∨ t.failCount = 0
  /-- `CS1` (R43). -/
  cs1 : c.offPrimary → Inv s → t.cs1 = s.cs1

/-- Every command keeps its frame, on every input and all draws. -/
theorem exec_commandFrame {i : Instr} {c : Cmd} {s t : State} (hi : commandOf i = some c)
    (h : exec i s = .next t) : CommandFrame c s t := by
  rcases exec_command_next hi h with ⟨_, _, _, _, _, rfl⟩ | ⟨d, op, hc, hop, rfl⟩
  · constructor <;> intros <;> simp [sameSurroundings, sameSecondary]
  · have allowed := expand_allowed c op (List.mem_of_getElem? hop)
    obtain ⟨hrxdata, hsample, hid, hrxBuf, htx2Buf, hrst⟩ := perform_registers op d s
    have hoff (hp : c.offPrimary) :=
      let ⟨hcsa, _, hx, hgate, hset⟩ := allowed.primary hp
      perform_offPrimary op d s hcsa hx hgate hset
    exact {
      surroundings := perform_surroundings op d s
      rxdata := fun h1 h2 => hrxdata (allowed.setrx h1 h2)
      sample := fun h1 h2 => hsample (allowed.decode h1 h2)
      idNibble := fun h1 => hid (allowed.idchk h1)
      rxBuf := fun h1 h2 h3 h4 =>
        let ⟨hclr, hkeep⟩ := allowed.keep h1 h2 h3 h4
        hrxBuf hkeep hclr
      tx2Buf := fun h1 h2 =>
        let ⟨_, harm, _⟩ := allowed.push h1 h2
        htx2Buf harm
      rst := fun h1 =>
        let ⟨hrsta, hrstd⟩ := allowed.reset h1
        hrst hrsta hrstd
      secondary := fun h1 h2 hinv =>
        let ⟨hsela, harm, hpoll, hseld⟩ := allowed.push h1 h2
        hinv.perform_sameSecondary hc hop d hsela harm hpoll hseld
      idst := fun hp => (hoff hp).1
      failCount := fun hp => (hoff hp).2.1
      cs1 := fun hp hinv =>
        let ⟨_, hcsd, hx, _⟩ := allowed.primary hp
        (hoff hp).2.2 (hinv.cs1_idle hc hop hx hcsd) }

/-! ## The frames of the families -/

/-- Settles O48: none of these commands is an exception of a field in the frame. -/
theorem deviceWriteFrame : Obligations.DeviceWriteFrame := by
  intro i s t hi h
  rcases hi with ⟨a, v, rfl⟩ | ⟨b, rfl⟩ | rfl | rfl | rfl
  all_goals
    have f := exec_commandFrame rfl h
    exact ⟨⟨f.rxdata nofun nofun, f.sample nofun nofun, f.idNibble nofun, f.rxBuf nofun nofun nofun nofun,
      f.tx2Buf nofun nofun⟩, f.surroundings, f.rst nofun, f.secondary nofun nofun⟩

/-- Settles O49: each of the three commands is an exception only of the fields the statement names. -/
theorem deviceReadFrame : Obligations.DeviceReadFrame := by
  intro i s t hi h
  rcases hi with ⟨a, rfl⟩ | rfl | rfl
  · have f := exec_commandFrame rfl h
    exact ⟨f.surroundings, f.rst nofun, f.tx2Buf nofun nofun, fun _ => f.sample nofun nofun,
      fun _ => f.idNibble nofun, nofun, f.secondary nofun nofun⟩
  · have f := exec_commandFrame rfl h
    exact ⟨f.surroundings, f.rst nofun, f.tx2Buf nofun nofun, fun hne => absurd rfl hne,
      fun _ => f.idNibble nofun, fun _ => f.rxdata nofun nofun, f.secondary nofun nofun⟩
  · have f := exec_commandFrame rfl h
    exact ⟨f.surroundings, f.rst nofun, f.tx2Buf nofun nofun, fun _ => f.sample nofun nofun,
      fun hne => absurd rfl hne, nofun, f.secondary nofun nofun⟩

/-- Settles O51: `FORWARD` is off the primary bus, and neither command is an exception of the other fields. -/
theorem pushFrame : Obligations.PushFrame := by
  intro i s t h
  constructor
  · rintro ⟨v, rfl⟩
    have f := exec_commandFrame rfl h
    have hp : (Cmd.forward v).offPrimary := .inr (.inr (.inr ⟨v, rfl⟩))
    exact ⟨f.surroundings, f.rxdata nofun nofun, f.sample nofun nofun, f.rxBuf nofun nofun nofun nofun,
      f.idNibble nofun, f.idst hp, f.rst nofun, f.failCount hp, f.cs1 hp⟩
  · rintro ⟨ch, rfl⟩
    have f := exec_commandFrame rfl h
    exact ⟨f.surroundings, f.rxdata nofun nofun, f.idNibble nofun, f.rst nofun⟩

/-! ## The wire opcodes -/

/-- An instruction that is no host command has a byte. -/
theorem encodeWire_of_commandOf_none {i : Instr} (h : commandOf i = none) :
    ∃ b, encodeWire i = some b := by
  cases i <;> simp_all [commandOf, encodeWire]

/-- A wire opcode performs the exchange of its byte, or does nothing (log entry 9). -/
theorem exec_wire_next {i : Instr} {s t : State} (hi : commandOf i = none) (h : exec i s = .next t) :
    (∃ b d, t = perform (.xchg b .discard) d s) ∨ t = s := by
  obtain ⟨b, hb⟩ := encodeWire_of_commandOf_none hi
  rw [exec_eq_wireOpcode hb] at h
  rcases wireOpcode_cases b s with ⟨d, -, e⟩ | e <;> rw [e] at h <;> cases h
  · exact .inl ⟨b, d, rfl⟩
  · exact .inr rfl

/-- The next micro-operation is one of the running command's. -/
theorem cur_of_nextMicroOp {s : State} {op : MicroOp} (h : nextMicroOp s = some op) :
    ∃ c, s.cur = some c ∧ (expand c)[s.upc]? = some op := by
  cases hc : s.cur with
  | none => simp [nextMicroOp_none hc] at h
  | some c => exact ⟨c, rfl, nextMicroOp_some hc ▸ h⟩

/-- Settles O52: a discarded exchange writes no register, and in a frame no transfer is armed for its abort
to release. -/
theorem wireOpcodeFrame : Obligations.WireOpcodeFrame := by
  intro i s t hi h
  rcases exec_wire_next hi h with ⟨b, d, rfl⟩ | rfl
  · obtain ⟨hrxdata, hsample, hid, hrxBuf, htx2Buf, hrst⟩ := perform_registers (.xchg b .discard) d s
    refine ⟨⟨hrxdata nofun, hsample nofun, hid nofun, hrxBuf nofun nofun, htx2Buf nofun⟩,
      perform_surroundings _ d s, hrst nofun nofun, ?_⟩
    rintro hinv ⟨b', dst, hnext⟩
    obtain ⟨c, hc, hop⟩ := cur_of_nextMicroOp hnext
    obtain ⟨hx, hs⟩ := hinv.secondary_idle hc hop nofun nofun nofun
    exact perform_secondary _ d hx hs nofun nofun
  · simp [sameRegisters, sameSurroundings, sameSecondary]

end Sys2Proof.Machine
end

section
/-! The host register window: each field of the `STATUS` word, the effect of a write by its offset, and the
accesses that are refused (20_memory.md R101 to R104). -/

namespace Sys2Proof.Machine

open Sys2Proof.Statements

/-! ## The fields of a word -/

/-- A field read back at its own place. -/
theorem extractLsb'_fieldAt {n : Nat} (lo : Nat) (x : BitVec n) (h : lo + n ≤ 32) :
    (fieldAt lo x).extractLsb' lo n = x := by
  ext i hi
  have : lo + i < 32 := by omega
  simp [fieldAt, *]

/-- A field does not show in a place beside its own. -/
theorem extractLsb'_fieldAt_of_disjoint {n : Nat} (lo k m : Nat) (x : BitVec n)
    (h : lo + n ≤ k ∨ k + m ≤ lo) : (fieldAt lo x).extractLsb' k m = 0 := by
  ext i hi
  rcases h with h | h
  · have : n ≤ k + i - lo := by omega
    simp [fieldAt, BitVec.getLsbD_of_ge, *]
  · have : k + i < lo := by omega
    simp [fieldAt, *]

/-- A bit is a field of length 1. -/
theorem getLsbD_eq_extractLsb' (w : Word) (k : Nat) :
    w.getLsbD k = (w.extractLsb' k 1).getLsbD 0 := by simp

theorem getLsbD_levelBit (l : Level) : (levelBit l).getLsbD 0 = decide (l = .asserted) := by
  cases l <;> rfl

theorem getLsbD_readyBit (d : Drdy) : (readyBit d).getLsbD 0 = decide (d = .low) := by
  cases d <;> rfl

/-- `ERR` shows the number of its code (60_exceptions.md R340). -/
theorem toNat_errBits (e : ErrCode) : (errBits e).toNat = codeOf e := by cases e <;> rfl

/-! ## The `STATUS` word -/

/-- The one field of `STATUS` that overlaps a place is what the place shows. -/
theorem statusWord_fields (s : State) (drdy : Drdy) :
    (statusWord s drdy).extractLsb' 0 1 = BitVec.ofBool s.busy ∧
    (statusWord s drdy).extractLsb' 1 2 = idstBits s.idst ∧
    (statusWord s drdy).extractLsb' 3 1 = levelBit s.sel2 ∧
    (statusWord s drdy).extractLsb' 4 1 = levelBit s.cs1 ∧
    (statusWord s drdy).extractLsb' 5 1 = BitVec.ofBool s.x2Busy ∧
    (statusWord s drdy).extractLsb' 6 1 = BitVec.ofBool s.irqPending ∧
    (statusWord s drdy).extractLsb' 7 1 = levelBit s.rst ∧
    (statusWord s drdy).extractLsb' 8 4 = errBits s.err ∧
    (statusWord s drdy).extractLsb' 12 4 = s.idNibble ∧
    (statusWord s drdy).extractLsb' 16 1 = readyBit drdy ∧
    (statusWord s drdy).extractLsb' 17 15 = 0 := by
  simp [statusWord, BitVec.extractLsb'_or, extractLsb'_fieldAt, extractLsb'_fieldAt_of_disjoint]

/-! ## Reads -/

theorem windowWord_status (s : State) (drdy : Drdy) : windowWord s 0x04 drdy = statusWord s drdy := rfl

theorem windowWord_ctrl (s : State) (drdy : Drdy) :
    windowWord s 0x08 drdy = (BitVec.ofBool s.cirqEn).zeroExtend 32 := rfl

theorem windowWord_rxdata (s : State) (drdy : Drdy) :
    windowWord s 0x0C drdy = s.rxdata.setWidth 32 := rfl

theorem windowWord_sample (s : State) (drdy : Drdy) :
    windowWord s 0x10 drdy = s.sample.setWidth 32 := rfl

theorem step_admittedRead {s : State} {off : Int} {n : Nat} {drdy : Drdy}
    (h : s.input = .hostRead off n drdy) (ha : admitted off n = true) :
    step s = .next (State.advance { s with hostOut := some (windowWord s off drdy) }) := by
  rw [step_hostRead h, hostReadStep, if_pos ha]
  rfl

/-- Settles O37: the word is `windowWord`, and `STATUS` shows its fields by `statusWord_fields`. -/
theorem hostReadGivesWord : Obligations.HostReadGivesWord := by
  intro s off n drdy hin ha
  refine ⟨windowWord s off drdy, step_admittedRead hin ha, ?_, ?_, ?_, ?_, ?_⟩
  · rintro rfl
    obtain ⟨hbusy, hidst, hsel2, hcs1, hx2, hirq, hrst, herr, hid, hrdy, hzero⟩ :=
      statusWord_fields s drdy
    simp only [windowWord_status, getLsbD_eq_extractLsb', hbusy, hidst, hsel2, hcs1, hx2, hirq, hrst, herr,
      hid, hrdy, hzero, getLsbD_levelBit, getLsbD_readyBit, toNat_errBits, BitVec.getLsbD_ofBool,
      decide_true, Bool.true_and, true_and, and_true]
    cases s.idst <;> rfl
  · rintro rfl
    rw [windowWord_ctrl]
    cases s.cirqEn <;> rfl
  · rintro rfl
    rw [windowWord_rxdata, BitVec.toNat_setWidth_of_le (by decide)]
  · rintro rfl
    rw [windowWord_sample, BitVec.toNat_setWidth_of_le (by decide)]
  · rintro (rfl | rfl | rfl | rfl) <;> rfl

/-! ## Writes -/

/-- A write beside `CMD` changes the block as `registerWrite` does. -/
theorem stepsTo_registerWrite {s : State} {off : Int} {v : Word} (h : s.input = .hostWrite off 4 v)
    (ha : admitted off 4 = true) (h0 : off ≠ 0) : stepsTo s (registerWrite off v s) :=
  ⟨_, step_registerWrite h ha h0, rfl⟩

theorem registerWrite_of_ne {off : Int} (h : off ≠ 0x08) (v : Word) (s : State) :
    registerWrite off v s = s := if_neg h

/-- Settles O38: `registerWrite` acts at `CTRL`'s offset only. -/
theorem registerWriteEffects : Obligations.RegisterWriteEffects := by
  intro s off v h
  constructor
  · rintro rfl
    exact stepsTo_registerWrite h (by decide) (by decide)
  · intro hoff
    have ha : admitted off 4 = true := (admitted_iff off 4).2 (by omega)
    simpa [registerWrite_of_ne (show off ≠ 0x08 by omega)] using
      stepsTo_registerWrite h ha (by omega)

/-! ## Refused accesses -/

/-- The window refuses every access that is not an aligned word of it (20_memory.md R101, R103). -/
theorem admitted_eq_false_iff (off : Int) (n : Nat) :
    admitted off n = false ↔ n ≠ 4 ∨ off % 4 ≠ 0 ∨ off < 0 ∨ 0x20 ≤ off := by
  rw [← Bool.not_eq_true, admitted_iff]
  omega

theorem step_refusedRead {s : State} {off : Int} {n : Nat} {drdy : Drdy}
    (h : s.input = .hostRead off n drdy) (ha : admitted off n = false) :
    step s = .refused (.hostAccess off n) := by
  rw [step_hostRead h, hostReadStep, ha]
  rfl

/-- Settles O39: among a step's answers only the refused access is a refusal, and the window's test is its
guard. -/
theorem oddHostAccessIsRefused : Obligations.OddHostAccessIsRefused := by
  intro s off n h
  rw [← admitted_eq_false_iff]
  constructor
  · intro hstep
    cases StepAnswers.of_step hstep with
    | refusedAccess _ _ _ ha => exact ha
  · intro ha
    rcases h with ⟨drdy, h⟩ | ⟨v, h⟩
    · exact step_refusedRead h ha
    · exact step_refusedWrite h ha

end Sys2Proof.Machine
end

section
/-! The encoding: the row of every word and what decoding it answers, the fields a mask test fixes, and from
them the two round trips of commands and wire opcodes (30_encoding.md R132 to R144). -/

namespace Sys2Proof.Machine

open Sys2Proof.Statements Sys2Proof.Laws

/-! ## What decoding answers (R137) -/

theorem decodeCmd_of_no_row {w : Word} (h : rowOf (opField w) = none) :
    decodeCmd w = .error .errIllegalOp := by
  rw [decodeCmd, h]

theorem decodeCmd_of_row {w m k : Word} (h : rowOf (opField w) = some (m, k)) :
    decodeCmd w = if w &&& k = m then operandsOf w else .error .errBadOperand := by
  rw [decodeCmd, h]

/-- A word that decodes passes its row's mask test, and its operands give the command. -/
theorem decodeCmd_ok {w : Word} {c : Cmd} (h : decodeCmd w = .ok c) :
    ∃ m k, rowOf (opField w) = some (m, k) ∧ w &&& k = m ∧ operandsOf w = .ok c := by
  cases hrow : rowOf (opField w) with
  | none => simp [decodeCmd_of_no_row hrow] at h
  | some row =>
    obtain ⟨m, k⟩ := row
    rw [decodeCmd_of_row hrow] at h
    split at h
    · next hmask => exact ⟨m, k, rfl, hmask, h⟩
    · cases h

/-! ## Fields a mask test fixes -/

/-- Where the mask has only ones, a field is the match's. -/
theorem extractLsb'_eq_of_mask {w k m : Word} {lo n : Nat} {x : BitVec n} (h : w &&& k = m)
    (hk : k.extractLsb' lo n = BitVec.allOnes n) (hm : m.extractLsb' lo n = x) :
    w.extractLsb' lo n = x := by
  rw [← hm, ← h, BitVec.extractLsb'_and, hk, BitVec.and_allOnes]

/-- A value whose bits from `n` up are masked to 0 is its low `n` bits. -/
theorem zeroExtend_extractLsb'_of_mask {N : Nat} (n : Nat) {x : BitVec N}
    (h : x &&& (BitVec.allOnes N <<< n) = 0) : (x.extractLsb' 0 n).zeroExtend N = x := by
  ext i hi
  by_cases hn : i < n
  · simp [hn, hi, BitVec.getElem_eq_testBit_toNat]
  · have hbit : x[i] = false := by simpa [hn, hi] using congrArg (·.getLsbD i) h
    simp [hn, hbit]

/-- Where the mask test leaves only the low `n` bits of the operand field free, they are the operand. -/
theorem operandField_eq_of_mask (n : Nat) {w k m : Word} (h : w &&& k = m)
    (hk : operandField k = BitVec.allOnes 24 <<< n) (hm : operandField m = 0) :
    ((operandField w).extractLsb' 0 n).zeroExtend 24 = operandField w := by
  refine zeroExtend_extractLsb'_of_mask n ?_
  rw [← hk, ← hm, ← h]
  simp [operandField, BitVec.extractLsb'_and]

theorem byteField_eq (w : Word) : byteField w = (operandField w).extractLsb' 0 8 :=
  (BitVec.extractLsb'_extractLsb'_of_le (by decide)).symm

theorem channelField_eq (w : Word) : channelField w = (operandField w).extractLsb' 0 4 :=
  (BitVec.extractLsb'_extractLsb'_of_le (by decide)).symm

/-! ## Rejection of a word that does not decode (60_exceptions.md R343) -/

theorem stepsTo_rejected_of_decodeCmd {s : State} {w : Word} {e : ErrCode}
    (h : s.input = .hostWrite 0 4 w) (hb : s.busy = false) (hd : decodeCmd w = .error e) :
    stepsTo s (rejected w e s) := by
  refine ⟨(rejectWord w e s).advance, ?_, rfl⟩
  rw [step_cmdWrite h, hb, hd]
  rfl

/-- The values of `OP` without a row are those from 0xB up (R140). -/
theorem rowOf_eq_none_iff : ∀ op : Nibble, rowOf op = none ↔ 0xB ≤ op.toNat := by decide

theorem toNat_opField (w : Word) : (opField w).toNat = w.toNat / 2 ^ 28 := by
  have := w.isLt
  rw [opField, BitVec.extractLsb'_toNat, Nat.shiftRight_eq_div_pow]
  omega

/-- Settles O4: `OP` is the word's value divided by 2^28, and from 0xB up it has no row. -/
theorem illegalOpIsRejected : Obligations.IllegalOpIsRejected := by
  intro s w hin hb hw
  refine stepsTo_rejected_of_decodeCmd hin hb (decodeCmd_of_no_row ?_)
  rw [rowOf_eq_none_iff, toNat_opField]
  omega

/-- Match and mask of the eleven rows of R134. -/
def hostRows : List (Word × Word) :=
  [(0x00000000, 0xFFFFFFFF), (0x10000000, 0xF0FFFFFF), (0x20000000, 0xF0FFFF00),
    (0x30000000, 0xFFFFFF00), (0x40000000, 0xFFFFFFFF), (0x50000000, 0xFFFFFFFF),
    (0x60000000, 0xFFFFFFFF), (0x70000000, 0xFFFFFFF0), (0x80000000, 0xFF000000),
    (0x90000000, 0xFFFFFFFF), (0xA0000000, 0xFF000000)]

/-- `OP` selects a row by the row's own match. -/
theorem rowOf_opField_of_mem_hostRows : ∀ row ∈ hostRows, rowOf (opField row.1) = some row := by
  intro row h
  fin_cases h <;> rfl

/-- A word with a row's `OP` selects that row. -/
theorem rowOf_opField_of_op {w m k : Word} (h : (m, k) ∈ hostRows) (hop : w &&& 0xF0000000 = m) :
    rowOf (opField w) = some (m, k) := by
  have hfield : opField w = opField m := extractLsb'_eq_of_mask hop (by decide) rfl
  rw [hfield]
  exact rowOf_opField_of_mem_hostRows (m, k) h

/-- Settles O5: the word has the row's `OP`, so the row's mask test is the one it fails. -/
theorem reservedBitIsRejected : Obligations.ReservedBitIsRejected := by
  intro s w m k hmem hop hmask hin hb
  have hd : decodeCmd w = .error .errBadOperand := by
    rw [decodeCmd_of_row (rowOf_opField_of_op hmem hop), if_neg hmask]
  exact stepsTo_rejected_of_decodeCmd hin hb hd

/-! ## Encoding a decoded command -/

/-- A word is packed from any values its fields have. -/
theorem packFields_eq {w : Word} {op a : Nibble} {o : Sample} (hop : opField w = op)
    (ha : addrField w = a) (ho : operandField w = o) : packFields op a o = w := by
  rw [← hop, ← ha, ← ho, packFields_fields]

/-- A word whose bits are all tested is its row's match. -/
theorem eq_of_fullMask {w m : Word} (h : w &&& 0xFFFFFFFF = m) : m = w :=
  h.symm.trans BitVec.and_allOnes

/-- Settles O3, row by row: `OP` is the row's, the mask test fixes every field the command does not hold,
and the fields it holds are the word's own. -/
theorem encodeOfDecodeGivesWord : Obligations.EncodeOfDecodeGivesWord := by
  intro w c h
  obtain ⟨m, k, hrow, hmask, hc⟩ := decodeCmd_ok h
  unfold operandsOf at hc
  split at hc <;> rename_i hop
  case h_12 => cases hc -- no row
  all_goals rw [hop] at hrow; cases hrow
  case h_8 => -- `ACQUIRE`
    split at hc <;> cases hc
    refine packFields_eq hop (extractLsb'_eq_of_mask hmask (by decide) (by decide)) ?_
    rw [channelField_eq, operandField_eq_of_mask 4 hmask (by decide) (by decide)]
  all_goals cases hc
  case h_1 | h_5 | h_6 | h_7 | h_10 => -- the rows without an operand
    exact eq_of_fullMask hmask
  case h_2 => -- `RREG`
    exact packFields_eq hop rfl (extractLsb'_eq_of_mask hmask (by decide) (by decide))
  case h_3 => -- `WREG`
    refine packFields_eq hop rfl ?_
    rw [byteField_eq, operandField_eq_of_mask 8 hmask (by decide) (by decide)]
  case h_4 => -- `OPCODE`
    refine packFields_eq hop (extractLsb'_eq_of_mask hmask (by decide) (by decide)) ?_
    rw [byteField_eq, operandField_eq_of_mask 8 hmask (by decide) (by decide)]
  case h_9 | h_11 => -- `FORWARD`, `WAIT`
    exact packFields_eq hop (extractLsb'_eq_of_mask hmask (by decide) (by decide)) rfl

/-! ## Decoding an encoded command -/

/-- An encoded command lies in its row of the opcode table. -/
theorem rowMatch_instrOf : ∀ c : Cmd, RowMatch.Statement (instrOf c)
  | .nop => RowMatch.nop
  | .rreg a => RowMatch.rreg a
  | .wreg a v => RowMatch.wreg a v
  | .opcode b => RowMatch.opcode b
  | .rdata => RowMatch.rdata
  | .identify => RowMatch.identify
  | .configure => RowMatch.configure
  | .acquire ch => RowMatch.acquire ch
  | .forward s => RowMatch.forward s
  | .resetPulse => RowMatch.resetPulse
  | .wait n => RowMatch.wait n

theorem rowOf_encodeCmd (c : Cmd) : ∃ m k, rowOf (opField (encodeCmd c)) = some (m, k) ∧
    (RowMatch.row (instrOf c)).2 = (m.toNat, k.toNat) := by
  cases c <;> simp only [encodeCmd, opField_packFields] <;> exact ⟨_, _, rfl, rfl⟩

theorem encode_of_commandOf {i : Instr} {c : Cmd} (h : commandOf i = some c) :
    encode i = (32, (encodeCmd c).toNat) := by
  rw [encode, h]

/-- An encoded command passes its row's mask test. -/
theorem decodeCmd_encodeCmd_eq_operandsOf (c : Cmd) :
    decodeCmd (encodeCmd c) = operandsOf (encodeCmd c) := by
  obtain ⟨m, k, hrow, hm⟩ := rowOf_encodeCmd c
  obtain ⟨-, -, hmatch⟩ := rowMatch_instrOf c
  have hmask : encodeCmd c &&& k = m := by
    apply BitVec.eq_of_toNat_eq
    rw [BitVec.toNat_and]
    simpa [encode_of_commandOf (commandOf_instrOf c), hm] using hmatch
  rw [decodeCmd_of_row hrow, if_pos hmask]

/-- An encoded command decodes to itself, but for a channel out of range (R137, R139). -/
theorem decodeCmd_encodeCmd (c : Cmd) : decodeCmd (encodeCmd c) =
    if (instrOf c).wellFormed then .ok c else .error .errBadOperand := by
  rw [decodeCmd_encodeCmd_eq_operandsOf]
  cases c <;>
    simp [operandsOf, encodeCmd, opField_packFields, addrField_packFields, operandField_packFields,
      byteField_packFields, channelField_packFields, BitVec.extractLsb'_setWidth_of_le, instrOf,
      Instr.wellFormed]

theorem encodeCmd_acquire : ∀ ch : Nibble,
    encodeCmd (.acquire ch) = 0x70000000 ||| ch.zeroExtend 32 := by decide

/-- Settles O6: the word is the encoding of `ACQUIRE ch`, and `NUM_CHANNELS` is one more than a number
below 16. -/
theorem channelRangeIsChecked : Obligations.ChannelRangeIsChecked := by
  refine ⟨fun ch => ?_, Nat.le_add_left 1 _, Config.lastChannel.isLt⟩
  rw [← encodeCmd_acquire, decodeCmd_encodeCmd]
  simp [instrOf, Instr.wellFormed]

/-! ## The numbering of the opcode table -/

theorem decodeTableWord_word (w : Word) :
    decodeTableWord 32 w.toNat = (decodeWord w).toOption := by
  have := w.isLt
  simp [decodeTableWord, this]

theorem decodeTableWord_byte (b : Byte) : decodeTableWord 8 b.toNat = decodeWire b := by
  have := b.isLt
  simp [decodeTableWord, this]

theorem decodeWord_encodeCmd {c : Cmd} (h : (instrOf c).wellFormed = true) :
    decodeWord (encodeCmd c) = .ok (tableName (instrOf c)) := by
  rw [decodeWord, decodeCmd_encodeCmd, if_pos h]

/-- A command's own term is well-formed where the instruction is, and has the same table name (R144). -/
theorem instrOf_of_commandOf {i : Instr} {c : Cmd} (h : commandOf i = some c) :
    (instrOf c).wellFormed = i.wellFormed ∧ tableName (instrOf c) = tableName i := by
  cases i <;> cases h <;> exact ⟨rfl, rfl⟩

theorem encode_of_encodeWire {i : Instr} {b : Byte} (h : encodeWire i = some b) :
    encode i = (8, b.toNat) := by
  cases i <;> cases h <;> rfl

/-- Each wire opcode's byte decodes to it (R132). -/
theorem decodeWire_of_encodeWire {i : Instr} {b : Byte} (h : encodeWire i = some b) :
    decodeWire b = some i := by
  cases i <;> cases h
  case wireRreg a => revert a; decide
  case wireWreg a => revert a; decide
  all_goals rfl

/-- A wire opcode's name in the table is its own. -/
theorem tableName_of_encodeWire {i : Instr} {b : Byte} (h : encodeWire i = some b) :
    tableName i = i := by
  cases i <;> cases h <;> rfl

/-- Decoding the encoding of a well-formed instruction gives it back under its table name. -/
theorem decodeTableWord_encode (i : Instr) (hi : i.wellFormed = true) :
    decodeTableWord (encode i).1 (encode i).2 = some (tableName i) := by
  cases hc : commandOf i with
  | some c =>
    obtain ⟨hwf, hname⟩ := instrOf_of_commandOf hc
    rw [encode_of_commandOf hc, decodeTableWord_word, decodeWord_encodeCmd (hwf.trans hi), hname]
    rfl
  | none =>
    obtain ⟨b, hb⟩ := encodeWire_of_commandOf_none hc
    rw [encode_of_encodeWire hb, decodeTableWord_byte, decodeWire_of_encodeWire hb,
      tableName_of_encodeWire hb]

/-- Settles O2: the statement's renaming is `tableName`. -/
theorem decodeOfEncodeGivesInstruction : Obligations.DecodeOfEncodeGivesInstruction := by
  intro i hi
  rw [decodeTableWord_encode i hi]
  cases i <;> rfl

/-- Settles O1, word by word. -/
theorem specWordsDecode : Obligations.SpecWordsDecode := by
  unfold Obligations.SpecWordsDecode
  and_intros <;> rfl

/-! ## The byte of a wire opcode -/

/-- A granted exchange without error is recorded, and its byte discarded (40_bus_transaction.md R176). -/
theorem opXchg_discard_of_sentBy {d : Draw} (h : sentBy d) (b : Byte) (s : State) :
    opXchg b .discard d s = sends b d s := by
  obtain ⟨hgrant, hxerr⟩ := h
  simp [opXchg, hgrant, hxerr, storeRx, sends, State.emit, State.nextOp]

/-- A wire opcode sends the byte that encodes it. -/
theorem exec_wire_of_sentBy {s : State} {d : Draw} {i : Instr} {b : Byte} (hin : s.input = .seq d)
    (h : sentBy d) (hb : encodeWire i = some b) : exec i s = .next (sends b d s) := by
  rw [exec_eq_wireOpcode hb, wireOpcode_seq hin, opXchg_discard_of_sentBy h]

/-- Settles O22: the bytes of the two register opcodes are sums. -/
theorem wireOpcodesSendTheirByte : Obligations.WireOpcodesSendTheirByte := by
  intro s d hin hgrant hxerr
  have send {i : Instr} {b : Byte} (hb : encodeWire i = some b) : exec i s = .next (sends b d s) :=
    exec_wire_of_sentBy hin ⟨hgrant, hxerr⟩ hb
  exact ⟨fun a => send (congrArg some (readOpcode_eq_add a)),
    fun a => send (congrArg some (writeOpcode_eq_add a)), send rfl, send rfl, send rfl⟩

end Sys2Proof.Machine
end

section
/-! The listings of the expansions: where `FINISH` stands, and what a frame holds (40_bus_transaction.md R171,
R182). -/

namespace Sys2Proof.Machine

/-- Settles O53, listing by listing. -/
theorem expansionsEndWithFinish : Obligations.ExpansionsEndWithFinish := by
  intro c
  refine ⟨(expand c).dropLast, ?_⟩
  cases c <;>
    simp [expand, expandNop, expandRreg, rregFrame, expandWreg, wregFrame, expandOpcode,
      opcodeFrame, expandRdata, readDataOps, rdataFrame, expandIdentify, expandConfigure,
      configureFrame, expandAcquire, expandForward, pushOps, expandResetPulse, expandWait, frame]

/-- Settles O54: the shape of every expansion says it at each index that has a micro-operation. -/
theorem framesHoldOnlyExchanges : Obligations.FramesHoldOnlyExchanges := by
  intro c k hopen
  cases hop : (expand c)[k]? with
  | none => exact .inr (.inr (List.getElem?_eq_none_iff.1 hop))
  | some op =>
    rcases (expand_shape c k op hop).frame_ops hopen with ⟨b, dst, rfl⟩ | rfl
    · exact .inl ⟨b, dst, rfl⟩
    · exact .inr (.inl rfl)

theorem expand_length_pos (c : Cmd) : 0 < (expand c).length := by
  obtain ⟨ops, h, -⟩ := expansionsEndWithFinish c
  simp [h]

end Sys2Proof.Machine
end

section
/-! What a Seq turn does to the fields the invariant reads, said once for every micro-operation; from it that
every step keeps the invariant. -/

namespace Sys2Proof.Machine

/-! ## What a micro-operation can answer -/

/-- What makes a micro-operation hold: the draw or the flag its rule waits for (40_bus_transaction.md R176,
R178, R184; 44_forwarding.md R292, R295). -/
def heldBy (d : Draw) (s : State) : MicroOp → Prop
  | .xchg _ _ => d.grant = false
  | .gate => d.drdy = .high
  | .tele _ | .teleBanner => d.accept = false
  | .irqwait => s.irqPending = true
  | .poll2 => s.x2Busy = true
  | _ => False

/-- The micro-operations an abort can come from (60_exceptions.md R347). -/
def abortable : MicroOp → Bool
  | .xchg _ _ | .gate | .poll2 => true
  | _ => false

/-- What an abort with any of the three effects leaves (R348 to R350). -/
structure Aborted (s t : State) : Prop where
  cur : t.cur = none
  upc : t.upc = 0
  busy : t.busy = false
  cs1 : t.cs1 = .deasserted
  sel2 : t.sel2 = .deasserted
  x2Busy : t.x2Busy = false
  rst : t.rst = s.rst
  idNibble : t.idNibble = s.idNibble
  /-- An abort settles no identity, and leaves HALTED never (42_identification.md R235). -/
  ok_before : t.idst = .ok → s.idst = .ok
  halted_after : s.idst = .halted → t.idst = .halted
  /-- A counted failure is a checked one, and halts the block at the limit (R349). -/
  failures : t.failCount = s.failCount ∨
    Config.checkXferErr = true ∧ (failLimitReached t.failCount = true → t.idst = .halted)

/-- `CS1` after a micro-operation that goes on (40_bus_transaction.md R174, R175). -/
@[simp] def cs1After (op : MicroOp) (l : Level) : Level :=
  match op with | .csa => .asserted | .csd => .deasserted | _ => l

/-- `RST` after it (45_control.md R327). -/
@[simp] def rstAfter (op : MicroOp) (l : Level) : Level :=
  match op with | .rsta => .asserted | .rstd => .deasserted | _ => l

/-- `SEL2` after it (44_forwarding.md R293, R297). -/
@[simp] def sel2After (op : MicroOp) (l : Level) : Level :=
  match op with | .sela => .asserted | .seld => .deasserted | _ => l

/-- What a micro-operation that goes on does to the fields the invariant reads. -/
structure GoesOn (op : MicroOp) (s t : State) : Prop where
  not_finish : op ≠ .finish
  cur : t.cur = s.cur
  upc : t.upc = s.upc + 1
  busy : t.busy = s.busy
  cs1 : t.cs1 = cs1After op s.cs1
  rst : t.rst = rstAfter op s.rst
  sel2 : t.sel2 = sel2After op s.sel2
  /-- Only `ARM2` arms a transfer, at its first byte (44_forwarding.md R294). -/
  x2Busy : (∀ src, op ≠ .arm2 src) → t.x2Busy = s.x2Busy
  armed_first : (∃ src, op = .arm2 src) → t.x2Idx = 0
  irqPending : t.irqPending = s.irqPending
  /-- `IRQWAIT` and `POLL2` go on only when what they wait for has come (R292, R295). -/
  waited : op = .irqwait → s.irqPending = false
  polled : op = .poll2 → s.x2Busy = false
  idst : op ≠ .idset → t.idst = s.idst
  /-- `IDSET` leaves UNCHECKED, for OK only with the expected ID (42_identification.md R233). -/
  settled : op = .idset → t.idst ≠ .unchecked ∧ (t.idst = .ok → t.idNibble = Config.expectedId)
  idNibble : op ≠ .idchk → t.idNibble = s.idNibble
  failCount : t.failCount = s.failCount

/-- Everything a micro-operation can answer. -/
inductive PerformAnswers (op : MicroOp) (d : Draw) (s : State) : State → Prop where
  | holds (h : heldBy d s op) : PerformAnswers op d s s
  | aborts (t : State) (ha : abortable op = true) (h : Aborted s t) : PerformAnswers op d s t
  | finishes (h : op = .finish) : PerformAnswers op d s (opFinish s)
  | goesOn (t : State) (h : GoesOn op s t) : PerformAnswers op d s t

theorem Aborted.poll (s : State) : Aborted s (abortWith .errUnresponsive id s) := by
  rw [abort_poll_eq]
  constructor <;> simp

theorem Aborted.gate (s : State) : Aborted s (abortWith .errUnresponsive gateTimeoutEffect s) := by
  rw [abort_gate_eq]
  constructor
  case ok_before => intro (h : ite _ _ _ = _); split_ifs at h; exact h
  all_goals simp +contextual

/-- A transport error aborts after the byte has been kept (R354). -/
theorem Aborted.xfer (dst : Dst) (v : Byte) (e : Event) (s : State)
    (hcheck : Config.checkXferErr = true) :
    Aborted s (abortWith .errXfer xferEffect (storeRx dst v (s.emit e))) := by
  rw [abort_xfer_eq]
  cases dst <;> constructor
  case ok_before | ok_before => intro (h : ite _ _ _ = _); split_ifs at h; exact h
  all_goals simp +contextual [storeRx, hcheck]

/-- A granted exchange goes on without an error, its byte kept or not (40_bus_transaction.md R176). -/
theorem goesOn_xchg (b : Byte) (dst : Dst) (v : Byte) (e : Event) (s : State) :
    GoesOn (.xchg b dst) s (storeRx dst v (s.emit e)).nextOp := by
  cases dst <;> constructor <;> simp [storeRx]

/-- Every micro-operation's answer is one of these. -/
theorem performAnswers (op : MicroOp) (d : Draw) (s : State) :
    PerformAnswers op d s (perform op d s) := by
  cases op with
  | finish => exact .finishes rfl
  | xchg b dst =>
    rcases opXchg_cases b dst d s with ⟨hg, h⟩ | ⟨-, -, hcheck, h⟩ | ⟨-, -, h⟩ <;> rw [perform, h]
    · exact .holds hg
    · exact .aborts _ rfl (.xfer dst _ _ s hcheck)
    · exact .goesOn _ (goesOn_xchg b dst _ _ s)
  | gate =>
    rcases opGate_cases d s with ⟨-, -, h⟩ | ⟨-, h⟩ | ⟨hd, h⟩ <;> rw [perform, h]
    · exact .aborts _ rfl (.gate s)
    · exact .goesOn _ (by constructor <;> simp)
    · exact .holds hd
  | poll2 =>
    rcases opPoll2_cases d s with ⟨-, -, h⟩ | ⟨hx, h⟩ | ⟨hx, h⟩ <;> rw [perform, h]
    · exact .aborts _ rfl (.poll s)
    · exact .holds hx
    · exact .goesOn _ (by constructor <;> simp [hx])
  | tele e =>
    rcases opTele_cases e d s with ⟨-, h⟩ | ⟨ha, h⟩ <;> rw [perform, h]
    · exact .goesOn _ (by constructor <;> simp)
    · exact .holds ha
  | teleBanner =>
    rcases opTele_cases (.banner (decide (s.idNibble = Config.expectedId))) d s with ⟨-, h⟩ | ⟨ha, h⟩ <;>
      rw [perform, opTeleBanner, h]
    · exact .goesOn _ (by constructor <;> simp)
    · exact .holds ha
  | irqwait =>
    rcases opIrqwait_cases s with ⟨hp, h⟩ | ⟨hp, h⟩ <;> rw [perform, h]
    · exact .holds hp
    · exact .goesOn _ (by constructor <;> simp [hp])
  | idset =>
    rcases opIdset_cases s with ⟨hid, h⟩ | ⟨hid, h⟩ <;> rw [perform, h] <;>
      exact .goesOn _ (by constructor <;> simp [hid])
  | csa | csd | delay | clrrx | setrx | decode | idchk | rsta | rstd | sela | arm2 | seld =>
    refine .goesOn _ ?_
    constructor <;>
      simp [perform, opCsa, opCsd, opDelay, opClrrx, opSetrx, opDecode, opIdchk, opRsta, opRstd, opSela,
        opArm2, opSeld]

/-! ## The invariant after a Seq turn -/

theorem doneOps_of_goesOn {c : Cmd} {op : MicroOp} {s t : State} (hc : s.cur = some c)
    (hop : (expand c)[s.upc]? = some op) (g : GoesOn op s t) : doneOps t = doneOps s ++ [op] := by
  rw [doneOps_some (g.cur.trans hc), doneOps_some hc, g.upc, take_succ_of_get hop]

theorem nextMicroOp_of_goesOn {c : Cmd} {op : MicroOp} {s t : State} (hc : s.cur = some c)
    (g : GoesOn op s t) : nextMicroOp t = (expand c)[s.upc + 1]? := by
  rw [nextMicroOp_some (g.cur.trans hc), g.upc]

/-- A transfer is armed after a micro-operation only if that armed it: with a transfer armed before, `Seq`
polls it, and `POLL2` does not go on. -/
theorem Inv.armed_by_arm2 {s t : State} {c : Cmd} {op : MicroOp} (h : Inv s) (hc : s.cur = some c)
    (hop : (expand c)[s.upc]? = some op) (g : GoesOn op s t) (hx : t.x2Busy = true) :
    ∃ src, op = .arm2 src := by
  by_contra hno
  have hbusy : s.x2Busy = true := g.x2Busy (not_exists.1 hno) ▸ hx
  have hpoll : op = .poll2 := by simpa [nextMicroOp_some hc, hop] using h.armed_poll hbusy
  simp [g.polled hpoll] at hbusy

/-- The identity state fits the command after a micro-operation as before: only `IDSET` writes it, and only
`IDSET` takes `IDENTIFY` past index 13. -/
theorem Inv.identityFits_of_goesOn {s t : State} {c : Cmd} {op : MicroOp} (h : Inv s)
    (hc : s.cur = some c) (hop : (expand c)[s.upc]? = some op) (g : GoesOn op s t) :
    identityFits t.idst c t.upc := by
  have shape := expand_shape c _ _ hop
  have fits := h.identity c hc
  by_cases hset : op = .idset
  · obtain ⟨rfl, hk⟩ := shape.idset_at.1 hset
    simp [identityFits, g.upc, hk, (g.settled hset).1]
  · rw [g.idst hset, g.upc]
    cases c
    case identify =>
      have hk : s.upc ≠ 13 := fun hk => hset (shape.idset_at.2 ⟨rfl, hk⟩)
      have hle : s.upc + 1 ≤ 13 ↔ s.upc ≤ 13 := by omega
      simpa only [identityFits, hle] using fits
    all_goals exact fits

/-- The ID and the identity state agree after a micro-operation as before: `IDCHK` writes the ID in
UNCHECKED, and `IDSET` compares it. -/
theorem Inv.id_matches_of_goesOn {s t : State} {c : Cmd} {op : MicroOp} (h : Inv s)
    (hc : s.cur = some c) (hop : (expand c)[s.upc]? = some op) (g : GoesOn op s t)
    (hok : t.idst = .ok) : t.idNibble = Config.expectedId := by
  by_cases hset : op = .idset
  · exact (g.settled hset).2 hok
  · rw [g.idst hset] at hok
    by_cases hchk : op = .idchk
    · obtain ⟨rfl, hk⟩ := (expand_shape c _ _ hop).idchk_at hchk
      have fits := h.identity _ hc
      simp [identityFits, hk, hok] at fits
    · rw [g.idNibble hchk, h.id_matches hok]

/-- At the failure limit a micro-operation that goes on leaves the block halted: `IDSET` runs in
UNCHECKED. -/
theorem Inv.limit_halts_of_goesOn {s t : State} {c : Cmd} {op : MicroOp} (h : Inv s)
    (hc : s.cur = some c) (hop : (expand c)[s.upc]? = some op) (g : GoesOn op s t)
    (hlimit : failLimitReached t.failCount = true) : t.idst = .halted := by
  have halted := h.limit_halts (g.failCount ▸ hlimit)
  by_cases hset : op = .idset
  · obtain ⟨rfl, hk⟩ := (expand_shape c _ _ hop).idset_at.1 hset
    have fits := h.identity _ hc
    simp [identityFits, hk, halted] at fits
  · rw [g.idst hset, halted]

/-- A micro-operation that goes on keeps the invariant. -/
theorem Inv.of_goesOn {s t : State} {c : Cmd} {op : MicroOp} (h : Inv s) (hc : s.cur = some c)
    (hop : (expand c)[s.upc]? = some op) (g : GoesOn op s t) : Inv t := by
  have shape := expand_shape c _ _ hop
  have hcur := g.cur.trans hc
  have hdone := doneOps_of_goesOn hc hop g
  have hnext := nextMicroOp_of_goesOn hc g
  have armed := h.armed_by_arm2 hc hop g
  have at_arm2 (src : Arm2Src) (he : op = .arm2 src) : s.sel2 = .asserted ∧ s.irqPending = false :=
    h.arm_sel2 src ((nextMicroOp_some hc).trans (he ▸ hop))
  constructor
  case busy_cur => rw [g.busy, g.cur, h.busy_cur]
  case idle_upc => simp [hcur]
  case upc_lt =>
    intro c' hc'
    obtain rfl := Option.some.inj (hcur.symm.trans hc')
    have hlast : s.upc + 1 ≠ (expand c).length := fun hk => g.not_finish (shape.finish_last.2 hk)
    have hlt := h.upc_lt _ hc
    rw [g.upc]
    omega
  case cs1_frame =>
    rw [hdone, csOpen_snoc, g.cs1]
    cases op <;> simp [h.cs1_frame]
  case rst_pulse =>
    rw [hdone, rstOpen_snoc, g.rst]
    cases op <;> simp [h.rst_pulse]
  case sel2_push =>
    rw [hdone, selOpen_snoc, g.sel2]
    cases op <;> simp +contextual [h.sel2_push]
  case armed_sel2 =>
    intro hx
    obtain ⟨src, rfl⟩ := armed hx
    rw [g.sel2, (at_arm2 src rfl).1]; rfl
  case armed_poll => intro hx; rw [hnext, shape.arm_then_poll (armed hx)]
  case armed_index => intro hx; rw [g.armed_first (armed hx)]; decide
  case armed_irq =>
    intro hx
    obtain ⟨src, he⟩ := armed hx
    rw [g.irqPending, (at_arm2 src he).2]
  case sela_irq =>
    intro hn
    rw [g.irqPending, g.waited (shape.wait_then_sela (hnext ▸ hn))]
  case arm_sel2 =>
    intro src hn
    obtain rfl := shape.sela_then_arm ⟨src, hnext ▸ hn⟩
    exact ⟨g.sel2, g.irqPending.trans (h.sela_irq ((nextMicroOp_some hc).trans hop))⟩
  case identity =>
    intro c' hc'
    obtain rfl := Option.some.inj (hcur.symm.trans hc')
    exact h.identityFits_of_goesOn hc hop g
  case channel => rw [g.cur]; exact h.channel
  case id_matches => exact h.id_matches_of_goesOn hc hop g
  case failures_checked => rw [g.failCount]; exact h.failures_checked
  case limit_halts => exact h.limit_halts_of_goesOn hc hop g

theorem Level.eq_deasserted {l : Level} (h : l ≠ .asserted) : l = .deasserted := by
  cases l with
  | asserted => exact absurd rfl h
  | deasserted => rfl

/-- Outside a reset pulse `RST` is deasserted (45_control.md R327). -/
theorem Inv.rst_idle {s : State} {c : Cmd} {op : MicroOp} (h : Inv s) (hc : s.cur = some c)
    (hop : (expand c)[s.upc]? = some op) (h1 : ∀ n, op ≠ .delay n) (h2 : op ≠ .rstd) :
    s.rst = .deasserted := by
  refine Level.eq_deasserted fun hs => ?_
  have hopen := h.rst_pulse.1 hs
  rw [doneOps_some hc] at hopen
  rcases (expand_shape c _ _ hop).pulse_ops hopen with ⟨n, he⟩ | he
  · exact h1 n he
  · exact h2 he

/-- An abort keeps the invariant: it releases `CS1` and the secondary bus itself, and no reset pulse is open
where it comes. -/
theorem Inv.of_aborted {s t : State} {c : Cmd} {op : MicroOp} (h : Inv s) (hc : s.cur = some c)
    (hop : (expand c)[s.upc]? = some op) (ha : abortable op = true) (a : Aborted s t) : Inv t := by
  have hrst : s.rst = .deasserted :=
    h.rst_idle hc hop (by rintro n rfl; cases ha) (by rintro rfl; cases ha)
  refine Inv.of_idle a.cur a.upc a.busy a.cs1 (a.rst.trans hrst) a.sel2 a.x2Busy ?_ ?_ ?_
  · intro hok
    rw [a.idNibble, h.id_matches (a.ok_before hok)]
  · intro hcheck
    rcases a.failures with hf | ⟨ht, -⟩
    · rw [hf, h.failures_checked hcheck]
    · simp [hcheck] at ht
  · intro hlimit
    rcases a.failures with hf | ⟨-, hh⟩
    · exact a.halted_after (h.limit_halts (hf ▸ hlimit))
    · exact hh hlimit

/-- No failure count of 0 reaches a limit (log entry 4). -/
theorem failLimitReached_zero : failLimitReached 0 = false := by
  by_contra hlimit
  obtain ⟨m, hm, hle⟩ := (failLimitReached_iff 0).1 (by simpa using hlimit)
  exact absurd (maxConsecFail_pos hm) (Nat.not_lt.2 hle)

/-- `FINISH` keeps the invariant: no line is held and nothing is armed where it stands. -/
theorem Inv.of_finish {s : State} {c : Cmd} (h : Inv s) (hc : s.cur = some c)
    (hop : (expand c)[s.upc]? = some .finish) : Inv (opFinish s) := by
  obtain ⟨hx, hsel⟩ := h.secondary_idle hc hop nofun nofun nofun
  refine Inv.of_idle rfl rfl rfl (h.cs1_idle hc hop nofun nofun) (h.rst_idle hc hop nofun nofun) hsel hx
    h.id_matches (fun _ => rfl) fun hlimit => ?_
  simp [opFinish, failLimitReached_zero] at hlimit

/-- A Seq turn of a running command keeps the invariant. -/
theorem Inv.of_perform {s : State} {c : Cmd} {op : MicroOp} (d : Draw) (h : Inv s) (hc : s.cur = some c)
    (hop : (expand c)[s.upc]? = some op) : Inv (perform op d s) := by
  have answers := performAnswers op d s
  generalize perform op d s = t at answers
  cases answers with
  | holds _ => exact h
  | aborts _ ha a => exact h.of_aborted hc hop ha a
  | finishes he => exact h.of_finish hc (he ▸ hop)
  | goesOn _ g => exact h.of_goesOn hc hop g

/-! ## The invariant after the other steps -/

/-- With no command latched every line and transfer is released. -/
theorem Inv.idle {s : State} (h : Inv s) (hc : s.cur = none) :
    s.cs1 = .deasserted ∧ s.rst = .deasserted ∧ s.sel2 = .deasserted ∧ s.x2Busy = false := by
  have hdone := doneOps_none hc
  refine ⟨Level.eq_deasserted fun hs => ?_, Level.eq_deasserted fun hs => ?_,
    Level.eq_deasserted fun hs => ?_, Bool.eq_false_of_not_eq_true fun hx => ?_⟩
  · simpa [hdone, csOpen] using h.cs1_frame.1 hs
  · simpa [hdone, rstOpen] using h.rst_pulse.1 hs
  · simpa [hdone, selOpen] using h.sel2_push hs
  · simpa [nextMicroOp_none hc] using h.armed_poll hx

/-- A command the gate lets pass fits the identity state at its start (60_exceptions.md R344). -/
theorem identityFits_of_idGate {idst : IdState} {c : Cmd} (h : idGate idst c = none) :
    identityFits idst c 0 := by
  cases idst <;> cases c <;> simp_all [idGate, identityFits]

/-- A decoded command is well-formed: its word is its encoding, which decodes only if it is
(30_encoding.md R139). -/
theorem wellFormed_of_decodeCmd {w : Word} {c : Cmd} (h : decodeCmd w = .ok c) :
    (instrOf c).wellFormed = true := by
  rw [← encodeOfDecodeGivesWord w c h, decodeCmd_encodeCmd] at h
  by_contra hwf
  simp [hwf] at h

theorem channel_of_decodeCmd {w : Word} {ch : Nibble} (h : decodeCmd w = .ok (.acquire ch)) :
    ch.toNat < Config.numChannels := by
  simpa [instrOf, Instr.wellFormed] using wellFormed_of_decodeCmd h

/-- Acceptance keeps the invariant: the block was idle, and no expansion begins with `SELA` or `ARM2`. -/
theorem Inv.of_accept {s : State} {c : Cmd} {w : Word} (h : Inv s) (hb : s.busy = false)
    (hd : decodeCmd w = .ok c) (hg : idGate s.idst c = none) :
    Inv { s with
      cur := some c, upc := 0, busy := true, err := .errNone, trace := s.trace ++ [.accept w] } := by
  have hidle : s.cur = none := by simpa [hb] using h.busy_cur
  obtain ⟨hcs, hrst, hsel, hx⟩ := h.idle hidle
  obtain ⟨hsela, harm⟩ := expand_first c
  exact { h with
    busy_cur := rfl
    idle_upc := nofun
    upc_lt := by simp [expand_length_pos]
    cs1_frame := by simp [hcs, doneOps, csOpen]
    rst_pulse := by simp [hrst, doneOps, rstOpen]
    sel2_push := by simp [hsel]
    armed_sel2 := by simp [hx]
    armed_poll := by simp [hx]
    sela_irq := fun hn => absurd hn hsela
    arm_sel2 := fun src hn => absurd hn (harm src)
    identity := fun c' hc' => Option.some.inj hc' ▸ identityFits_of_idGate hg
    channel := fun ch hc' => channel_of_decodeCmd (Option.some.inj hc' ▸ hd) }

/-- The handler keeps the invariant: with a completion pending, nothing is armed and no `ARM2` is next. -/
theorem Inv.of_irqStep {s : State} (h : Inv s) : Inv (irqStep s) := by
  rcases irqStep_cases s with ⟨hp, e⟩ | ⟨-, e⟩ <;> rw [e]
  · have hx : s.x2Busy ≠ true := fun hx => by simp [h.armed_irq hx] at hp
    exact { h with
      sel2_push := nofun
      armed_sel2 := fun ht => absurd ht hx
      armed_irq := fun _ => rfl
      sela_irq := fun _ => rfl
      arm_sel2 := fun src hn => by simp [(h.arm_sel2 src hn).2] at hp }
  · exact h

/-- A byte clocked before the last keeps the invariant. -/
theorem Inv.of_armedByte {s : State} {es : List Event} (h : Inv s) (hi : s.x2Idx ≠ 2) :
    Inv { s with x2Idx := s.x2Idx + 1, trace := s.trace ++ es } :=
  { h with
    armed_index := fun hx => by
      have hlt := h.armed_index hx
      change (s.x2Idx + 1).val < 3
      omega }

/-- The completion keeps the invariant: it comes while `Seq` polls, so neither `SELA` nor `ARM2` is next. -/
theorem Inv.of_lastByte {s : State} {irq : Bool} {es : List Event} (h : Inv s) (hx : s.x2Busy = true) :
    Inv { s with x2Idx := 3, x2Busy := false, irqPending := irq, trace := s.trace ++ es } := by
  have hpoll := h.armed_poll hx
  exact { h with
    armed_sel2 := nofun
    armed_poll := nofun
    armed_index := nofun
    armed_irq := nofun
    sela_irq := fun hn => nomatch hpoll.symm.trans hn
    arm_sel2 := fun _ hn => nomatch hpoll.symm.trans hn }

/-- A write to a register of the window keeps the invariant, which does not read `CIRQ_EN`. -/
theorem Inv.of_registerWrite {s : State} (off : Int) (v : Word) (h : Inv s) :
    Inv (registerWrite off v s) := by
  unfold registerWrite
  split
  · exact { h with }
  · exact h

/-- Using up the input keeps the invariant, which reads no field of the surroundings. -/
theorem Inv.of_advance {s : State} (h : Inv s) : Inv s.advance := { h with }

/-- Settles O41: every kind of step keeps the invariant. -/
theorem stepKeepsInvariant : Obligations.StepKeepsInvariant := by
  intro s t h hstep
  cases StepAnswers.of_step hstep with
  | hostRead off n drdy _ _ => exact { h with }
  | rejectedWord w e _ _ => exact { h with }
  | acceptedWord w c _ hd hb hg => exact (h.of_accept hb hd hg).of_advance
  | otherWrite off v _ _ _ => exact (h.of_registerWrite off v).of_advance
  | idleTurn _ _ _ => exact h.of_advance
  | microOp d c op _ hc hop => exact (h.of_perform d hc hop).of_advance
  | handler _ => exact h.of_irqStep.of_advance
  | strayByte r _ _ => exact { h with }
  | armedByte _ b _ _ _ hi => exact (h.of_armedByte hi).of_advance
  | lastByte _ b _ hx _ _ => exact (h.of_lastByte hx).of_advance
  | blockReset _ => exact { invariantHoldsAtReset with }

/-! ## Runs from reset -/

/-- Every state a run reaches from one that meets the invariant meets it. -/
theorem Inv.of_run {n : Nat} {s t : State} (h : Inv s) (hrun : Host.Core.run core n s = .next t) :
    Inv t := by
  induction n generalizing s with
  | zero => cases hrun; exact h
  | succ n ih =>
    cases hs : step s with
    | next u => exact ih (stepKeepsInvariant s u h hs) ((run_next hs).symm.trans hrun)
    | fault r => simp [Host.Core.run, core, hs] at hrun
    | refused r => simp [Host.Core.run, core, hs] at hrun

/-- Settles O43: the invariant holds after reset, whatever the script, so in every state a run reaches. -/
theorem selectFollowsFrame : Obligations.SelectFollowsFrame := by
  intro n inputs t hrun
  have h0 : Inv { State.reset with script := inputs } := { invariantHoldsAtReset with }
  have h := h0.of_run hrun
  refine ⟨h.cs1_frame, fun hb => ?_⟩
  exact (h.idle (by simpa [hb] using h.busy_cur)).1

end Sys2Proof.Machine
end

section
/-! What a step runs, by its input, and the micro-operations that hold: every step of a `GATE` and of an
exchange (40_bus_transaction.md R170 to R184). -/

namespace Sys2Proof.Machine

open Sys2Proof.Statements

/-! ## What a step runs -/

/-- The table's name of a term is well-formed where the term is (R144). -/
theorem wellFormed_tableName {i : Instr} (h : i.wellFormed = true) :
    (tableName i).wellFormed = true := by
  unfold tableName
  split
  · split_ifs <;> rfl
  · exact h

theorem wellFormed_of_decodeWord {w : Word} {i : Instr} (h : decodeWord w = .ok i) :
    i.wellFormed = true := by
  unfold decodeWord at h
  split at h
  · next hd => cases h; exact wellFormed_tableName (wellFormed_of_decodeCmd hd)
  · cases h

/-- A decoded word written to `CMD` of an idle block runs its instruction (60_exceptions.md R342). -/
theorem step_of_decodeWord {s : State} {w : Word} {i : Instr} (h : s.input = .hostWrite 0 4 w)
    (hb : s.busy = false) (hd : decodeWord w = .ok i) :
    step s = onNext State.advance (exec i s) := by
  have ha : admitted 0 4 = true := by decide
  simp [step, fetch, h, ha, presentWord, hb, hd]

/-- A Seq turn runs the latched command's instruction (40_bus_transaction.md R170). -/
theorem step_of_cur {s : State} {d : Draw} {c : Cmd} (h : s.input = .seq d) (hc : s.cur = some c) :
    step s = onNext State.advance (exec (instrOf c) s) := by
  rw [step_seq h hc, exec_instrOf, command_seq h hc]

/-- The byte right after a `CSA`, sent at a discard position, is the wire opcode it decodes to
(30_encoding.md R132). -/
theorem wireOpcodeAt_of_csa {ops : List MicroOp} {k : Nat} {b : Byte} (hk : 0 < k)
    (hcsa : ops[k - 1]? = some .csa) (hx : ops[k]? = some (.xchg b .discard)) :
    wireOpcodeAt ops k = decodeWire b := by
  obtain ⟨j, rfl⟩ := Nat.exists_eq_add_one.2 hk
  rw [Nat.add_sub_cancel] at hcsa
  simp only [wireOpcodeAt, hcsa, hx]

/-- Settles O7: by input, what a step runs; a wire opcode is the running command's own exchange. -/
theorem stepRunsDecodedInstruction : Obligations.StepRunsDecodedInstruction := by
  refine ⟨fun s w i h hb hd => ⟨wellFormed_of_decodeWord hd, step_of_decodeWord h hb hd⟩,
    fun s d c h hc => step_of_cur h hc, fun s d c b i h hc hk hcsa hnext hb => ?_⟩
  have hx := (nextMicroOp_some hc).symm.trans hnext
  have hw := (wireOpcodeAt_of_csa hk hcsa hx).trans hb
  rw [step_seq h hc, wireOpcodeAt_spec h hw]

/-- Settles O8: the step only uses its input. -/
theorem idleSequencerTurnChangesNothing : Obligations.IdleSequencerTurnChangesNothing :=
  fun s _ h hc => ⟨s.advance, step_seq_idle h hc, rfl⟩

/-! ## Holds, passes and aborts -/

/-- A running command's Seq turn performs the next micro-operation (R170). -/
theorem exec_of_runs {s : State} {d : Draw} {c : Cmd} {op : MicroOp} (h : runs c d s)
    (hnext : nextMicroOp s = some op) : exec (instrOf c) s = .next (perform op d s) := by
  obtain ⟨hc, hin⟩ := h
  exact exec_seq (commandOf_instrOf c) hin hc ((nextMicroOp_some hc).symm.trans hnext)

/-- Settles O23, micro-operation by micro-operation. -/
theorem heldStepChangesNothing : Obligations.HeldStepChangesNothing := by
  intro s d c op hruns hnext hheld
  rw [exec_of_runs hruns hnext]
  rcases hheld with ⟨⟨b, dst, rfl⟩, hg⟩ | ⟨rfl, hd, he⟩ | ⟨⟨e, rfl⟩ | rfl, ha⟩ | ⟨rfl, hp⟩ | ⟨rfl, hx, he⟩
  · simp [perform, opXchg, hg]
  · rcases he with he | he <;> simp [perform, opGate, hd, he]
  · simp [perform, opTele, ha]
  · simp [perform, opTeleBanner, opTele, ha]
  · simp [perform, opIrqwait, hp]
  · rcases he with he | he <;> simp [perform, opPoll2, hx, he]

/-- Settles O24: the abort of a `GATE` finds no line asserted and nothing armed. -/
theorem gateStep : Obligations.GateStep := by
  intro s d c h hruns hnext
  have ⟨hc, _⟩ := hruns
  have hop := (nextMicroOp_some hc).symm.trans hnext
  obtain ⟨hx, hsel⟩ := h.secondary_idle hc hop nofun nofun nofun
  have hcs := h.cs1_idle hc hop nofun nofun
  rw [exec_of_runs hruns hnext, perform, opGate, abort_gate_eq]
  simp only [Bool.and_eq_true, Option.isSome_iff_ne_none]
  refine congrArg _ (ite_congr rfl (fun _ => ?_) fun _ => rfl)
  simp [abortEvents, hx, hsel, hcs]

/-- The position keeps the byte as the buffer's own update does (R173). -/
theorem storeRx_eq (dst : Dst) (v : Byte) (s : State) :
    storeRx dst v s = { s with rxBuf := keptBytes dst v s.rxBuf } := by
  rcases dst with _ | i
  · rfl
  · fin_cases i <;> rfl

/-- Settles O26: the abort of an exchange finds `CS1` asserted, `SEL2` not, and nothing armed. -/
theorem exchangeStep : Obligations.ExchangeStep := by
  intro s d c b dst h hruns hnext
  have ⟨hc, _⟩ := hruns
  have hop := (nextMicroOp_some hc).symm.trans hnext
  obtain ⟨hx, hsel⟩ := h.secondary_idle hc hop nofun nofun nofun
  have hcs : s.cs1 = .asserted := by
    rw [h.cs1_frame, doneOps_some hc]
    exact (expand_shape c _ _ hop).in_frame (.inl ⟨b, dst, rfl⟩)
  rw [exec_of_runs hruns hnext, perform]
  rcases opXchg_cases b dst d s with ⟨hg, e⟩ | ⟨hg, he, hcheck, e⟩ | ⟨hg, hno, e⟩ <;> rw [e]
  · rw [if_pos hg]
  · rw [if_neg (by simp [hg]), if_pos ⟨he, hcheck⟩, abort_xfer_eq, storeRx_eq]
    cases hlimit : Config.maxConsecFail <;>
      simp [failLimitReached, hlimit, abortEvents, hx, hsel, hcs, he]
  · rw [if_neg (by simp [hg]), if_neg (by rcases hno with h | h <;> simp [h]), storeRx_eq]
    rfl

end Sys2Proof.Machine
end

section
/-! Completion under fairness: a run on a stream of inputs as a sequence of turns, what a waiting
micro-operation waits for, and that the fair turns bring it (40_bus_transaction.md R184, R190;
44_forwarding.md R292, R295). -/

namespace Sys2Proof.Machine

/-! ## Turns of a run -/

/-- The state with `i` as the input of its next step. -/
def State.turn (t : State) (i : Input) : State := { t with script := [i] }

theorem State.turn_input (t : State) (i : Input) : (t.turn i).input = i := rfl

theorem Inv.turn {t : State} (h : Inv t) (i : Input) : Inv (t.turn i) := { h with }

theorem runOn_succ {f : Nat → Input} {n : Nat} {s t : State} (h : runOn f n s = .next t) :
    runOn f (n + 1) s = step (t.turn (f n)) := by
  rw [runOn, h]; rfl

/-- Without refused accesses every turn from a state that meets the invariant answers a next one. -/
theorem Inv.exists_step {f : Nat → Input} {t : State} (h : Inv t) (hf : Undisturbed f) (n : Nat) :
    ∃ t', step (t.turn (f n)) = .next t' ∧ Inv t' := by
  cases hs : step (t.turn (f n)) with
  | next t' => exact ⟨t', rfl, stepKeepsInvariant _ _ (h.turn _) hs⟩
  | fault r => exact absurd hs (invariantExcludesFaults _ r (h.turn _))
  | refused r =>
    obtain ⟨-, hread, hwrite⟩ := hf n
    cases StepAnswers.of_step hs with
    | refusedAccess off k hin ha =>
      rcases hin with ⟨drdy, hin⟩ | ⟨w, hin⟩
      · simp [hread off k drdy hin] at ha
      · simp [hwrite off k w hin] at ha

/-- The run of `f` from `s` comes to a state with `P` that meets the invariant. -/
def Reaches (f : Nat → Input) (s : State) (P : State → Prop) : Prop :=
  ∃ n t, runOn f n s = .next t ∧ Inv t ∧ P t

/-- A run that is in `P`, and stays there or comes to `Q` with every turn, comes to `Q` if again and again
there is a turn that brings it from `P` to `Q`. -/
theorem Reaches.of_fair {f : Nat → Input} {s : State} {P Q : State → Prop} (hf : Undisturbed f)
    (stays : ∀ n t t', Inv t → P t → step (t.turn (f n)) = .next t' → P t' ∨ Q t')
    (helps : ∀ k, ∃ n, k ≤ n ∧ ∀ t t', Inv t → P t → step (t.turn (f n)) = .next t' → Q t')
    (h : Reaches f s P) : Reaches f s Q := by
  obtain ⟨k, t, hrun, hinv, hp⟩ := h
  obtain ⟨n, hkn, helped⟩ := helps k
  obtain ⟨m, rfl⟩ := Nat.exists_eq_add_of_le hkn
  induction m generalizing k t with
  | zero =>
    obtain ⟨t', hstep, hinv'⟩ := hinv.exists_step hf k
    exact ⟨k + 1, t', (runOn_succ hrun).trans hstep, hinv', helped t t' hinv hp hstep⟩
  | succ m ih =>
    obtain ⟨t', hstep, hinv'⟩ := hinv.exists_step hf k
    have hrun' := (runOn_succ hrun).trans hstep
    rcases stays k t t' hinv hp hstep with hp' | hq
    · have hidx : k + (m + 1) = k + 1 + m := by omega
      exact ih (k + 1) t' hrun' hinv' hp' (Nat.le_add_right _ _) (hidx ▸ helped)
    · exact ⟨k + 1, t', hrun', hinv', hq⟩

/-! ## What a micro-operation waits for -/

/-- Command `c` runs and its micro-operation at index `u` is next. -/
def RunsAt (c : Cmd) (u : Nat) (t : State) : Prop := t.cur = some c ∧ t.upc = u

/-- The micro-operation at index `u` of `c` is done, or the command has ended. -/
def PastOp (c : Cmd) (u : Nat) (t : State) : Prop := t.cur = none ∨ RunsAt c (u + 1) t

/-- How many turns of another agent a micro-operation waits for: `IRQWAIT` for the handler's, `POLL2` for a
clock of each byte left (44_forwarding.md R292, R295). -/
def turnsAwaited (op : MicroOp) (t : State) : Nat :=
  match op with
  | .irqwait => if t.irqPending then 1 else 0
  | .poll2 => if t.x2Busy then 3 - t.x2Idx.val else 0
  | _ => 0

/-- The handler writes neither the running command nor the transfer, and leaves no interrupt pending. -/
theorem irqStep_frame (t : State) : (irqStep t).cur = t.cur ∧ (irqStep t).upc = t.upc ∧
    (irqStep t).x2Busy = t.x2Busy ∧ (irqStep t).x2Idx = t.x2Idx ∧ (irqStep t).irqPending = false := by
  rcases irqStep_cases t with ⟨-, e⟩ | ⟨hp, e⟩ <;> rw [e]
  · exact ⟨rfl, rfl, rfl, rfl, rfl⟩
  · exact ⟨rfl, rfl, rfl, rfl, hp⟩

theorem turnsAwaited_irqStep_le (op : MicroOp) (t : State) :
    turnsAwaited op (irqStep t) ≤ turnsAwaited op t := by
  obtain ⟨-, -, hx, hi, hp⟩ := irqStep_frame t
  cases op <;> simp [turnsAwaited, hx, hi, hp]

/-- With a transfer armed the next micro-operation is `POLL2`. -/
theorem Inv.eq_poll2 {t : State} {c : Cmd} {op : MicroOp} (h : Inv t) (hc : t.cur = some c)
    (hop : (expand c)[t.upc]? = some op) (hx : t.x2Busy = true) : op = .poll2 := by
  simpa [nextMicroOp_some hc, hop] using h.armed_poll hx

/-- A Seq turn performs the next micro-operation, which holds only where `heldBy` says so. -/
theorem perform_holds_or_past {t : State} {c : Cmd} {op : MicroOp} (d : Draw) (hc : t.cur = some c) :
    (heldBy d t op ∧ perform op d t = t) ∨ PastOp c t.upc (perform op d t) := by
  have answers := performAnswers op d t
  generalize perform op d t = t' at answers
  cases answers with
  | holds h => exact .inl ⟨h, rfl⟩
  | aborts _ _ a => exact .inr (.inl a.cur)
  | finishes _ => exact .inr (.inl rfl)
  | goesOn _ g => exact .inr (.inr ⟨g.cur.trans hc, g.upc⟩)

/-- A turn of any agent leaves the running command where it is, with no more turns awaited, or takes it
further. -/
theorem Inv.waits_or_past {t t' : State} {c : Cmd} {op : MicroOp} (h : Inv t)
    (hin : t.input ≠ .blockReset) (hc : t.cur = some c) (hop : (expand c)[t.upc]? = some op)
    (hstep : step t = .next t') :
    (RunsAt c t.upc t' ∧ turnsAwaited op t' ≤ turnsAwaited op t) ∨ PastOp c t.upc t' := by
  cases StepAnswers.of_step hstep with
  | blockReset hr => exact absurd hr hin
  | acceptedWord _ _ _ _ hb _ => simp [h.busy_cur, hc] at hb
  | idleTurn _ _ hnone => simp [hc] at hnone
  | microOp d c' op' _ hc' hop' =>
    obtain rfl := Option.some.inj (hc.symm.trans hc')
    obtain rfl := Option.some.inj (hop.symm.trans hop')
    rcases perform_holds_or_past (op := op) d hc with ⟨-, e⟩ | hpast
    · rw [e]; exact .inl ⟨⟨hc, rfl⟩, le_rfl⟩
    · exact .inr hpast
  | handler _ =>
    obtain ⟨hcur, hupc, -⟩ := irqStep_frame t
    exact .inl ⟨⟨hcur.trans hc, hupc⟩, turnsAwaited_irqStep_le op t⟩
  | armedByte _ _ _ hx _ hi =>
    obtain rfl := h.eq_poll2 hc hop hx
    have hlt := h.armed_index hx
    refine .inl ⟨⟨hc, rfl⟩, ?_⟩
    simp only [turnsAwaited, State.advance_x2Busy, State.advance_x2Idx, hx, if_true]
    omega
  | lastByte _ _ _ hx _ _ =>
    obtain rfl := h.eq_poll2 hc hop hx
    exact .inl ⟨⟨hc, rfl⟩, by simp [turnsAwaited]⟩
  | otherWrite off v _ _ _ =>
    unfold registerWrite
    split <;> exact .inl ⟨⟨hc, rfl⟩, le_rfl⟩
  | hostRead _ _ _ _ _ | rejectedWord _ _ _ _ | strayByte _ _ _ => exact .inl ⟨⟨hc, rfl⟩, le_rfl⟩

/-- A Seq turn at which the next micro-operation does not hold takes the command further. -/
theorem step_past_of_not_held {t t' : State} {c : Cmd} {op : MicroOp} {d : Draw} (hin : t.input = .seq d)
    (hc : t.cur = some c) (hop : (expand c)[t.upc]? = some op) (hfree : ¬ heldBy d t op)
    (hstep : step t = .next t') : PastOp c t.upc t' := by
  rw [step_seq hin hc, performAt, hop] at hstep
  cases hstep
  exact (perform_holds_or_past d hc).resolve_left fun ⟨hheld, _⟩ => hfree hheld

/-! ## The fair turns -/

/-- Again and again there is a turn after which fewer are awaited. -/
theorem PushFair.helps {f : Nat → Input} (hf : PushFair f) (op : MicroOp) (k : Nat) :
    ∃ n, k ≤ n ∧ ∀ t t', Inv t → 0 < turnsAwaited op t → step (t.turn (f n)) = .next t' →
      turnsAwaited op t' < turnsAwaited op t := by
  obtain ⟨clocks, handles⟩ := hf
  cases op with
  | irqwait =>
    obtain ⟨n, hn, hin⟩ := handles k
    refine ⟨n, hn, fun t t' _ hpos hstep => ?_⟩
    rw [step_irq ((t.turn_input _).trans hin)] at hstep
    cases hstep
    obtain ⟨-, -, -, -, hp⟩ := irqStep_frame (t.turn (f n))
    simpa [turnsAwaited, hp] using hpos
  | poll2 =>
    obtain ⟨n, b, hn, hin⟩ := clocks k
    refine ⟨n, hn, fun t t' h hpos hstep => ?_⟩
    have hx : t.x2Busy = true := by
      by_contra hx
      simp [turnsAwaited, hx] at hpos
    have hlt := h.armed_index hx
    rw [step_remote ((t.turn_input _).trans hin)] at hstep
    rcases remoteStep_cases b (t.turn (f n)) with
      ⟨hno, -⟩ | ⟨_, -, -, -, e⟩ | ⟨_, -, -, -, e⟩ | ⟨-, hb, -⟩
    · exact nomatch hx.symm.trans hno
    · rw [e] at hstep
      cases hstep
      simp only [turnsAwaited, State.turn, State.advance_x2Busy, State.advance_x2Idx, hx, if_true]
      omega
    · rw [e] at hstep
      cases hstep
      simpa [turnsAwaited] using hpos
    · exact absurd hb (byteAt_ne_none _ hlt)
  | _ => exact ⟨k, le_rfl, fun _ _ _ hpos => absurd hpos (lt_irrefl 0)⟩

/-- The fairness assumptions on a stream of inputs (40_bus_transaction.md R184, R190). -/
structure FairStream (f : Nat → Input) : Prop where
  xport : XportFair f
  tele : TeleFair f
  device : DeviceFair f
  push : PushFair f
  undisturbed : Undisturbed f

/-- Again and again there is a Seq turn at which a micro-operation that awaits no other agent does not
hold. -/
theorem FairStream.frees {f : Nat → Input} (hf : FairStream f) (op : MicroOp) (k : Nat) :
    ∃ n d, k ≤ n ∧ f n = .seq d ∧ ∀ t, Inv t → turnsAwaited op t = 0 → ¬ heldBy d t op := by
  obtain ⟨n, d, hn, hin, hg⟩ := hf.xport k
  cases op with
  | gate =>
    obtain ⟨n, d, hn, hin, hlow⟩ := hf.device k
    exact ⟨n, d, hn, hin, fun _ _ _ hheld => nomatch hlow.symm.trans hheld⟩
  | tele | teleBanner =>
    obtain ⟨n, d, hn, hin, ha⟩ := hf.tele k
    exact ⟨n, d, hn, hin, fun _ _ _ hheld => nomatch ha.symm.trans hheld⟩
  | xchg => exact ⟨n, d, hn, hin, fun _ _ _ hheld => nomatch hg.symm.trans hheld⟩
  | irqwait => exact ⟨n, d, hn, hin, fun t _ h0 hheld => by simp_all [turnsAwaited, heldBy]⟩
  | poll2 =>
    refine ⟨n, d, hn, hin, fun t h h0 hheld => ?_⟩
    have hx : t.x2Busy = true := hheld
    have := h.armed_index hx
    simp only [turnsAwaited, if_pos hx] at h0
    omega
  | _ => exact ⟨n, d, hn, hin, fun _ _ _ hheld => hheld⟩

/-! ## Completion -/

section

variable {f : Nat → Input} {s : State} {c : Cmd} {u : Nat}

/-- A command goes past each of its micro-operations. -/
theorem FairStream.reaches_past (hf : FairStream f) {op : MicroOp} (hop : (expand c)[u]? = some op)
    (k : Nat) (h : Reaches f s fun t => RunsAt c u t ∧ turnsAwaited op t ≤ k) :
    Reaches f s (PastOp c u) := by
  have waits (n : Nat) (t t' : State) (hinv : Inv t) (hat : RunsAt c u t)
      (hstep : step (t.turn (f n)) = .next t') :
      (RunsAt c u t' ∧ turnsAwaited op t' ≤ turnsAwaited op t) ∨ PastOp c u t' := by
    obtain ⟨hc, rfl⟩ := hat
    exact (hinv.turn (f n)).waits_or_past (hf.undisturbed n).1 hc hop hstep
  induction k with
  | zero =>
    refine h.of_fair hf.undisturbed (fun n t t' hinv hp hstep => ?_) fun j => ?_
    · obtain ⟨hat, hle⟩ := hp
      exact (waits n t t' hinv hat hstep).imp_left fun ⟨hat', hle'⟩ => ⟨hat', hle'.trans hle⟩
    · obtain ⟨n, d, hn, hin, free⟩ := hf.frees op j
      refine ⟨n, hn, fun t t' hinv hp hstep => ?_⟩
      obtain ⟨⟨hc, rfl⟩, hle⟩ := hp
      have hfree := free _ (hinv.turn (f n)) (Nat.le_zero.1 hle)
      exact step_past_of_not_held (t := t.turn (f n)) ((t.turn_input _).trans hin) hc hop hfree hstep
  | succ k ih =>
    have hfewer : Reaches f s fun t => (RunsAt c u t ∧ turnsAwaited op t ≤ k) ∨ PastOp c u t := by
      refine h.of_fair hf.undisturbed (fun n t t' hinv hp hstep => ?_) fun j => ?_
      · obtain ⟨hat, hle⟩ := hp
        rcases waits n t t' hinv hat hstep with ⟨hat', hle'⟩ | hpast
        · exact .inl ⟨hat', hle'.trans hle⟩
        · exact .inr (.inr hpast)
      · obtain ⟨n, hn, helped⟩ := hf.push.helps op j
        refine ⟨n, hn, fun t t' hinv hp hstep => ?_⟩
        obtain ⟨hat, hle⟩ := hp
        have hless := fun hpos => helped t t' hinv hpos hstep
        exact (waits n t t' hinv hat hstep).imp_left fun ⟨hat', hle'⟩ => ⟨hat', by omega⟩
    obtain ⟨n, t, hrun, hinv, hwait | hpast⟩ := hfewer
    · exact ih ⟨n, t, hrun, hinv, hwait⟩
    · exact ⟨n, t, hrun, hinv, hpast⟩

/-- A running command ends, by the number of its micro-operations left. -/
theorem FairStream.reaches_end (hf : FairStream f) (h : Reaches f s (RunsAt c u)) :
    Reaches f s fun t => t.cur = none := by
  induction hleft : (expand c).length - u generalizing u with
  | zero =>
    obtain ⟨n, t, -, hinv, hc, rfl⟩ := h
    have := hinv.upc_lt c hc
    omega
  | succ left ih =>
    have hop : (expand c)[u]? = some (expand c)[u] := List.getElem?_eq_getElem (by omega)
    obtain ⟨n, t, hrun, hinv, hat⟩ := h
    obtain ⟨n, t, hrun, hinv, hend | hnext⟩ :=
      hf.reaches_past hop _ ⟨n, t, hrun, hinv, hat, le_rfl⟩
    · exact ⟨n, t, hrun, hinv, hend⟩
    · exact ih ⟨n, t, hrun, hinv, hnext⟩ (by omega)

end

/-- Settles O56: a latched command goes past each of its micro-operations, the last of which ends it. -/
theorem fairRunsEndEveryCommand : Obligations.FairRunsEndEveryCommand := by
  intro f s hinv hxport htele hdevice hpush hund
  have hf : FairStream f := ⟨hxport, htele, hdevice, hpush, hund⟩
  cases hc : s.cur with
  | none => exact ⟨0, s, rfl, hc⟩
  | some c =>
    obtain ⟨n, t, hrun, -, hend⟩ := hf.reaches_end ⟨0, s, rfl, hinv, hc, rfl⟩
    exact ⟨n, t, hrun, hend⟩

end Sys2Proof.Machine
end

section
/-! Register access: each step of `RREG`, `WREG` and `OPCODE` against its listing (41_register_access.md R200,
R205, R209), and a whole `RREG` as its acceptance, its calm turns and its `FINISH`. -/

namespace Sys2Proof.Machine

open Sys2Proof.Statements

/-! ## A micro-operation in the listings' terms -/

theorem perform_csa (d : Draw) (s : State) : perform .csa d s = selects s := rfl

theorem perform_csd (d : Draw) (s : State) : perform .csd d s = deselects s := rfl

theorem perform_delay (n : Nat) (d : Draw) (s : State) :
    perform (.delay n) d s = logs (.delay n) s := rfl

theorem perform_clrrx (d : Draw) (s : State) : perform .clrrx d s = clears s := rfl

theorem perform_setrx (d : Draw) (s : State) :
    perform .setrx d s = { s with rxdata := s.rxBuf.b0, upc := s.upc + 1 } := rfl

theorem perform_finish (d : Draw) (s : State) : perform .finish d s = ends s := rfl

/-- A `GATE` passes when the device is ready and no timeout is drawn (40_bus_transaction.md R178). -/
theorem perform_gate_of_readyIn {d : Draw} (h : readyIn d) (s : State) :
    perform .gate d s = passes s := by
  obtain ⟨hdrdy, hexpire⟩ := h
  simp [perform, opGate, hdrdy, hexpire, passes, State.nextOp]

theorem perform_xchg_discard_of_sentBy {d : Draw} (h : sentBy d) (b : Byte) (s : State) :
    perform (.xchg b .discard) d s = sends b d s :=
  opXchg_discard_of_sentBy h b s

/-- A granted exchange without error keeps its byte at index 0 (R176). -/
theorem perform_xchg_rx0_of_sentBy {d : Draw} (h : sentBy d) (s : State) :
    perform (.xchg Config.rxFill (.rx 0)) d s = keeps0 d s := by
  obtain ⟨hgrant, hxerr⟩ := h
  simp [perform, opXchg, hgrant, hxerr, storeRx, setByte, keeps0, State.emit, State.nextOp]

/-! ## The listings, step by step -/

/-- An instruction's Seq turn at index `k` of its command gives what the micro-operation there gives. -/
theorem exec_at {i : Instr} {c : Cmd} {d : Draw} {s t : State} {k : Nat} {op : MicroOp}
    (hi : commandOf i = some c) (h : runs c d s) (hk : s.upc = k) (hop : (expand c)[k]? = some op)
    (ht : perform op d s = t) : exec i s = .next t := by
  obtain ⟨hc, hin⟩ := h
  rw [exec_seq hi hin hc (hk ▸ hop), ht]

/-- Settles O14, at each index of the listing. -/
theorem rregSteps : Obligations.RregSteps := by
  intro s d a h hlt hready hsent
  unfold afterRreg
  interval_cases hk : s.upc
  · exact exec_at rfl h hk rfl (perform_gate_of_readyIn (hready rfl) s)
  · exact exec_at rfl h hk rfl (perform_clrrx d s)
  · exact exec_at rfl h hk rfl (perform_csa d s)
  · rw [← readOpcode_eq_add]
    exact exec_at rfl h hk rfl (perform_xchg_discard_of_sentBy (hsent (by decide) (by decide)) _ s)
  · exact exec_at rfl h hk rfl (perform_xchg_discard_of_sentBy (hsent (by decide) (by decide)) _ s)
  · exact exec_at rfl h hk rfl (perform_xchg_discard_of_sentBy (hsent (by decide) (by decide)) _ s)
  · exact exec_at rfl h hk rfl (perform_xchg_rx0_of_sentBy (hsent (by decide) (by decide)) s)
  · exact exec_at rfl h hk rfl (perform_csd d s)
  · exact exec_at rfl h hk rfl (perform_delay _ d s)
  · exact exec_at rfl h hk rfl (by rw [perform_setrx, hk]; rfl)
  · exact exec_at rfl h hk rfl (perform_finish d s)

/-- Settles O15, at each index of the listing. -/
theorem wregSteps : Obligations.WregSteps := by
  intro s d a v h hlt hsent
  unfold afterWreg
  interval_cases hk : s.upc
  · exact exec_at rfl h hk rfl (perform_csa d s)
  · rw [← writeOpcode_eq_add]
    exact exec_at rfl h hk rfl (perform_xchg_discard_of_sentBy (hsent (by decide) (by decide)) _ s)
  · exact exec_at rfl h hk rfl (perform_xchg_discard_of_sentBy (hsent (by decide) (by decide)) _ s)
  · exact exec_at rfl h hk rfl (perform_xchg_discard_of_sentBy (hsent (by decide) (by decide)) _ s)
  · exact exec_at rfl h hk rfl (perform_csd d s)
  · exact exec_at rfl h hk rfl (perform_finish d s)

/-- The steps of `OPCODE b` under any name the table gives it (30_encoding.md R144). -/
theorem exec_opcode {i : Instr} {b : Byte} {d : Draw} {s : State} (hi : commandOf i = some (.opcode b))
    (h : runs (.opcode b) d s) (hlt : s.upc < 4) (hsent : s.upc = 1 → sentBy d) :
    exec i s = .next (afterOpcode b d s) := by
  unfold afterOpcode
  interval_cases hk : s.upc
  · exact exec_at hi h hk rfl (perform_csa d s)
  · exact exec_at hi h hk rfl (perform_xchg_discard_of_sentBy (hsent rfl) b s)
  · exact exec_at hi h hk rfl (perform_csd d s)
  · exact exec_at hi h hk rfl (perform_finish d s)

/-- Settles O16: `SYNC` and `WAKEUP` are names of `OPCODE 0xFC` and `OPCODE 0x00`. -/
theorem opcodeSteps : Obligations.OpcodeSteps := by
  intro s d b h hlt hsent
  refine ⟨exec_opcode rfl h hlt hsent, ?_, ?_⟩ <;> rintro rfl <;> exact exec_opcode rfl h hlt hsent

/-! ## Runs of calm turns -/

/-- The draws of `calmTurn m`. -/
def Draw.calm (m : Byte) : Draw :=
  { grant := true, miso := m, xerr := false, drdy := .low, accept := true, expire := false }

@[simp] theorem Draw.calm_miso (m : Byte) : (Draw.calm m).miso = m := rfl

@[simp] theorem Draw.calm_xerr (m : Byte) : (Draw.calm m).xerr = false := rfl

theorem sentBy_calm (m : Byte) : sentBy (.calm m) := ⟨rfl, rfl⟩

theorem readyIn_calm (m : Byte) : readyIn (.calm m) := ⟨rfl, rfl⟩

/-- The micro-operations that wait for no other agent and do not end the command. -/
def goesOnWhenCalm : MicroOp → Bool
  | .finish | .irqwait | .poll2 => false
  | _ => true

/-- In a calm turn such a micro-operation goes on to the next. -/
theorem perform_calm_next {op : MicroOp} (h : goesOnWhenCalm op = true) (m : Byte) (s : State) :
    (perform op (.calm m) s).cur = s.cur ∧ (perform op (.calm m) s).upc = s.upc + 1 := by
  cases op with
  | finish | irqwait | poll2 => cases h
  | xchg b dst => cases dst <;> simp [perform, opXchg, Draw.calm, storeRx]
  | gate => rw [perform_gate_of_readyIn (readyIn_calm m)]; exact ⟨rfl, rfl⟩
  | idset => rcases opIdset_cases s with ⟨-, h⟩ | ⟨-, h⟩ <;> simp [perform, h]
  | _ => exact ⟨rfl, rfl⟩

/-- The state after the micro-operations `ops` in calm turns that bring the bytes `ms`. -/
def afterCalm : List MicroOp → List Byte → State → State
  | op :: ops, m :: ms, s => afterCalm ops ms (perform op (.calm m) s).advance
  | _, _, s => s

/-- A run through the next micro-operations of a command in calm turns, one for each. -/
theorem run_calmTurns {c : Cmd} {ops later : List MicroOp} {ms : List Byte} {rest : List Input}
    {s : State} (n : Nat) (hlen : ops.length = ms.length) (hops : ∀ op ∈ ops, goesOnWhenCalm op = true)
    (hc : s.cur = some c) (hnext : (expand c).drop s.upc = ops ++ later)
    (hscript : s.script = ms.map calmTurn ++ rest) :
    Host.Core.run core (n + ops.length) s = Host.Core.run core n (afterCalm ops ms s) := by
  induction ops generalizing s ms with
  | nil => rfl
  | cons op ops ih =>
    obtain _ | ⟨m, ms⟩ := ms
    · cases hlen
    have hop : (expand c)[s.upc]? = some op := by rw [← List.head?_drop, hnext]; rfl
    have hin : s.input = .seq (.calm m) := by rw [State.input, hscript]; rfl
    obtain ⟨hcur, hupc⟩ := perform_calm_next (hops op List.mem_cons_self) m s
    obtain ⟨-, -, hsame, -⟩ := perform_surroundings op (.calm m) s
    refine (run_seq hin hc hop).trans (ih (Nat.succ.inj hlen) (List.forall_mem_of_forall_mem_cons hops)
      (hcur.trans hc) ?_ ?_)
    · rw [State.advance_upc, hupc, ← List.tail_drop, hnext]; rfl
    · rw [State.advance_script, hsame, hscript]; rfl

/-! ## A whole `RREG` -/

/-- In ten calm turns `RREG a` comes to its `FINISH`, the fourth received byte of the frame kept and loaded
(41_register_access.md R200, R201). -/
theorem afterCalm_rreg {s : State} {a : Nibble} {g m0 m1 m2 m3 : Byte} {rest : List Input}
    (hk : s.upc = 0) (hscript : s.script = [g, g, g, m0, m1, m2, m3, g, g, g].map calmTurn ++ rest) :
    afterCalm ((expandRreg a).take 10) [g, g, g, m0, m1, m2, m3, g, g, g] s = { s with
      script := rest, tick := s.tick + 10
      rxBuf := ⟨m3, 0x00, 0x00⟩, rxdata := m3, cs1 := .deasserted, upc := 10
      trace := s.trace ++ [.cs1 .asserted, .x1 (0x10 + a.zeroExtend 8) m0 false, .x1 0x00 m1 false,
        .x1 0xFF m2 false, .x1 Config.rxFill m3 false, .cs1 .deasserted, .delay 100] } := by
  simp [expandRreg, rregFrame, frame, afterCalm, perform_gate_of_readyIn, perform_xchg_discard_of_sentBy,
    perform_xchg_rx0_of_sentBy, readyIn_calm, sentBy_calm, perform_clrrx, perform_csa, perform_csd,
    perform_delay, perform_setrx, passes, clears, selects, sends, keeps0, deselects, logs, State.advance,
    readOpcode_eq_add, Config.tRreg, hk, hscript]

theorem goesOnWhenCalm_rreg (a : Nibble) :
    ∀ op ∈ (expandRreg a).take 10, goesOnWhenCalm op = true := by
  simp [expandRreg, rregFrame, frame, goesOnWhenCalm]

/-- Settles O31: the word is accepted, ten calm turns take the command to its `FINISH`, and the eleventh ends
it. -/
theorem rregRunReadsFourthByte : Obligations.RregRunReadsFourthByte := by
  intro s a g m0 m1 m2 m3 rest hb hid hscript
  have hin : s.input = .hostWrite 0 4 (encodeCmd (.rreg a)) := by rw [State.input, hscript]
  have hd : decodeCmd (encodeCmd (.rreg a)) = .ok (.rreg a) :=
    (decodeCmd_encodeCmd _).trans (if_pos rfl)
  have hturns {t : State} (ht : t.script = s.script.tail) :
      t.script = [g, g, g, m0, m1, m2, m3, g, g, g].map calmTurn ++ calmTurn g :: rest := by
    rw [ht, hscript]; rfl
  rw [run_accept hin hb hd (by rw [hid]; rfl)]
  refine (run_calmTurns (later := [.finish]) 1 rfl (goesOnWhenCalm_rreg a) rfl rfl (hturns rfl)).trans ?_
  rw [afterCalm_rreg rfl (hturns rfl), run_seq rfl rfl rfl, perform_finish]
  simp [ends, Host.Core.run, State.advance, hb]

end Sys2Proof.Machine
end

section
/-! Identification (42_identification.md): what a halted block still does, the exits of an identity state, each
step of `IDENTIFY` against its listing, and a whole `IDENTIFY` as its acceptance, its calm turns and its
`FINISH`. -/

namespace Sys2Proof.Machine

open Sys2Proof.Statements

/-! ## The halted block (R234) -/

/-- Of a running command, a halted block has only the `FINISH` left: that of `NOP`, or of the `IDENTIFY` that
halted it. -/
theorem Inv.eq_finish_of_halted {s : State} {c : Cmd} {op : MicroOp} (h : Inv s)
    (hid : s.idst = .halted) (hc : s.cur = some c) (hop : (expand c)[s.upc]? = some op) :
    op = .finish := by
  have fits := h.identity c hc
  have hlt := h.upc_lt c hc
  refine (expand_shape c _ _ hop).finish_last.2 ?_
  cases c with
  | nop =>
    have hlen : (expand .nop).length = 1 := rfl
    omega
  | identify =>
    have hlen : (expand .identify).length = 15 := rfl
    have hpast : 13 < s.upc := by
      by_contra hle
      simp [identityFits, hid, Nat.not_lt.1 hle] at fits
    omega
  | _ => simp [identityFits, hid] at fits

/-- In a halted block no secondary transfer is armed. -/
theorem Inv.x2Busy_of_halted {s : State} (h : Inv s) (hid : s.idst = .halted) : s.x2Busy = false := by
  by_contra hx
  obtain ⟨c, hc, hop⟩ := cur_of_nextMicroOp (h.armed_poll (by simpa using hx))
  cases h.eq_finish_of_halted hid hc hop

/-- A write to a register of the window leaves the trace and the identity state. -/
theorem registerWrite_trace_idst (off : Int) (v : Word) (s : State) :
    (registerWrite off v s).trace = s.trace ∧ (registerWrite off v s).idst = s.idst := by
  unfold registerWrite
  split <;> exact ⟨rfl, rfl⟩

/-- Settles O45: `Seq` has at most a `FINISH` to perform and `Remote` only stray bytes to clock; what the
other agents do is quiet. -/
theorem haltedBlockIsQuiet : Obligations.HaltedBlockIsQuiet := by
  intro s t hinv hid hreset hstep
  have hx := hinv.x2Busy_of_halted hid
  suffices h : (∃ es, t.trace = s.trace ++ es ∧ es.all quietEvent = true) ∧ t.idst = .halted by
    obtain ⟨hquiet, hhalted⟩ := h
    exact ⟨hquiet, stepKeepsInvariant s t hinv hstep, hhalted⟩
  cases StepAnswers.of_step hstep with
  | blockReset h => exact absurd h hreset
  | microOp d c op _ hc hop =>
    obtain rfl := hinv.eq_finish_of_halted hid hc hop
    exact ⟨⟨[.finish], rfl, rfl⟩, hid⟩
  | handler _ =>
    rcases irqStep_cases s with ⟨-, h⟩ | ⟨-, h⟩ <;> rw [h]
    · exact ⟨⟨[.sel2 .deasserted .irq], rfl, rfl⟩, hid⟩
    · exact ⟨⟨[], by simp, rfl⟩, hid⟩
  | armedByte _ _ _ ht _ _ | lastByte _ _ _ ht _ _ => exact nomatch hx.symm.trans ht
  | strayByte r _ _ => exact ⟨⟨[.x2 r true], rfl, rfl⟩, hid⟩
  | rejectedWord w e _ _ => exact ⟨⟨[.reject w e], rfl, rfl⟩, hid⟩
  | acceptedWord w c _ _ _ _ => exact ⟨⟨[.accept w], rfl, rfl⟩, hid⟩
  | otherWrite off v _ _ _ =>
    obtain ⟨htrace, hidst⟩ := registerWrite_trace_idst off v s
    exact ⟨⟨[], by simp [htrace], rfl⟩, hidst.trans hid⟩
  | hostRead _ _ _ _ _ | idleTurn _ _ _ => exact ⟨⟨[], by simp, rfl⟩, hid⟩

/-! ## The exits of an identity state (R235) -/

/-- `IDSET` runs in UNCHECKED (R233). -/
theorem Inv.unchecked_of_idset {s : State} {c : Cmd} (h : Inv s) (hc : s.cur = some c)
    (hop : (expand c)[s.upc]? = some .idset) : s.idst = .unchecked := by
  obtain ⟨rfl, hk⟩ := (expand_shape c _ _ hop).idset_at.1 rfl
  simpa [identityFits, hk] using h.identity _ hc

/-- How a step changed the identity state without `IDSET`: a timeout at a `GATE` took it from OK back to
UNCHECKED, or a transfer error at the failure limit halted the block (60_exceptions.md R349, R350). -/
def leavesIdentity (s t : State) : Prop :=
  (s.idst = .ok ∧ t.idst = .unchecked ∧ t.err = .errUnresponsive ∧ Config.readyTimeout ≠ none) ∨
  (t.idst = .halted ∧ t.err = .errXfer ∧ Config.checkXferErr = true ∧ Config.maxConsecFail ≠ none)

/-- But for `IDSET`, only the aborts of a `GATE` and of an exchange write the identity state. -/
theorem perform_idst (op : MicroOp) (d : Draw) (s : State) (hset : op ≠ .idset) :
    (perform op d s).idst = s.idst ∨ leavesIdentity s (perform op d s) := by
  cases op with
  | csa => exact .inl rfl
  | gate =>
    rcases opGate_cases d s with ⟨-, ht, h⟩ | ⟨-, h⟩ | ⟨-, h⟩ <;> rw [perform, h]
    · rw [abort_gate_eq]
      by_cases hok : s.idst = .ok
      · exact .inr (.inl ⟨hok, if_pos hok, rfl, ht⟩)
      · exact .inl (if_neg hok)
    · exact .inl rfl
    · exact .inl rfl
  | xchg b dst =>
    rcases opXchg_cases b dst d s with ⟨-, h⟩ | ⟨-, -, hcheck, h⟩ | ⟨-, -, h⟩ <;>
      rw [perform, h]
    · exact .inl rfl
    · rw [storeRx_eq, abort_xfer_eq]
      cases hlimit : failLimitReached (s.failCount + 1) with
      | false => exact .inl (by simp [hlimit])
      | true =>
        obtain ⟨m, hm, -⟩ := (failLimitReached_iff _).1 hlimit
        exact .inr (.inr ⟨by simp [hlimit], rfl, hcheck, by simp [hm]⟩)
    · exact .inl (by rw [storeRx_eq]; rfl)
  | _ => exact .inl (perform_offPrimary _ d s (by simp) (by simp) (by simp) hset).1

/-- A step other than block reset from a settled block keeps the identity state or leaves it by an abort. -/
theorem Inv.step_idst {s t : State} (h : Inv s) (hsettled : s.idst ≠ .unchecked)
    (hreset : s.input ≠ .blockReset) (hstep : step s = .next t) :
    t.idst = s.idst ∨ leavesIdentity s t := by
  cases StepAnswers.of_step hstep with
  | blockReset h => exact absurd h hreset
  | microOp d c op _ hc hop =>
    have hset : op ≠ .idset := fun he => hsettled (h.unchecked_of_idset hc (he ▸ hop))
    exact perform_idst op d s hset
  | handler _ => rcases irqStep_cases s with ⟨-, h⟩ | ⟨-, h⟩ <;> rw [h] <;> exact .inl rfl
  | otherWrite off v _ _ _ => exact .inl (registerWrite_trace_idst off v s).2
  | _ => exact .inl rfl

/-- Settles O47: OK is left by an abort only, which the default parameters rule out; HALTED stays by O45. -/
theorem identityIsSettledOnce : Obligations.IdentityIsSettledOnce := by
  intro s t hinv hreset hstep
  have exits (hok : s.idst = .ok) : t.idst = .ok ∨ leavesIdentity s t :=
    hok ▸ hinv.step_idst (by simp [hok]) hreset hstep
  refine ⟨fun hok => ?_, fun hok hdefault => ?_, fun hid => ?_⟩
  · exact (exits hok).imp_right (Or.imp_left And.right)
  · obtain ⟨hready, -, hcheck, -⟩ := hdefault
    rcases exits hok with h | ⟨-, -, -, ht⟩ | ⟨-, -, ht, -⟩
    · exact h
    · exact absurd hready ht
    · exact nomatch hcheck.symm.trans ht
  · obtain ⟨-, -, hhalted⟩ := haltedBlockIsQuiet s t hinv hid hreset hstep
    exact hhalted

/-! ## The listing, step by step (R230 to R233) -/

/-- The top nibble is the byte divided by 16 (R231). -/
theorem topNibble_eq_ofNat (b : Byte) : topNibble b = BitVec.ofNat 4 (b.toNat / 16) := by
  simp [topNibble, BitVec.extractLsb', Nat.shiftRight_eq_div_pow]

theorem perform_idchk (d : Draw) (s : State) :
    perform .idchk d s =
      { s with idNibble := BitVec.ofNat 4 (s.rxdata.toNat / 16), upc := s.upc + 1 } := by
  rw [← topNibble_eq_ofNat]; rfl

/-- The banner tells whether the ID is 3, once the sink accepts (R232). -/
theorem perform_teleBanner {d : Draw} (h : d.accept = true) (s : State) :
    perform .teleBanner d s = logs (.tele (.banner (decide (s.idNibble = 3)))) s := by
  rw [perform, opTeleBanner, opTele, if_pos h]; rfl

/-- `IDSET` settles the identity state, and `ERR` on a mismatch, by the expected ID (R233). -/
theorem perform_idset (d : Draw) (s : State) :
    perform .idset d s = { s with
      idst := if s.idNibble = Config.expectedId then .ok else .halted
      err := if s.idNibble = Config.expectedId then s.err else .errIdMismatch
      upc := s.upc + 1 } := by
  rcases opIdset_cases s with ⟨hid, h⟩ | ⟨hid, h⟩ <;> rw [perform, h]
  · rw [if_pos hid, if_pos hid]
  · rw [if_neg hid, if_neg hid]

/-- Settles O17, at each index of the listing. -/
theorem identifySteps : Obligations.IdentifySteps := by
  intro s d h hlt hready hsent haccept
  unfold afterIdentify
  interval_cases hk : s.upc
  · exact exec_at rfl h hk rfl (perform_gate_of_readyIn (hready (by decide)) s)
  · exact exec_at rfl h hk rfl (perform_gate_of_readyIn (hready (by decide)) s)
  · exact exec_at rfl h hk rfl (perform_clrrx d s)
  · exact exec_at rfl h hk rfl (perform_csa d s)
  · rw [← readOpcode_eq_add]
    exact exec_at rfl h hk rfl (perform_xchg_discard_of_sentBy (hsent (by decide) (by decide)) _ s)
  · exact exec_at rfl h hk rfl (perform_xchg_discard_of_sentBy (hsent (by decide) (by decide)) _ s)
  · exact exec_at rfl h hk rfl (perform_xchg_discard_of_sentBy (hsent (by decide) (by decide)) _ s)
  · exact exec_at rfl h hk rfl (perform_xchg_rx0_of_sentBy (hsent (by decide) (by decide)) s)
  · exact exec_at rfl h hk rfl (perform_csd d s)
  · exact exec_at rfl h hk rfl (perform_delay _ d s)
  · exact exec_at rfl h hk rfl (by rw [perform_setrx, hk]; rfl)
  · exact exec_at rfl h hk rfl (by rw [perform_idchk, hk]; rfl)
  · exact exec_at rfl h hk rfl (perform_teleBanner (haccept rfl) s)
  · exact exec_at rfl h hk rfl (by simp only [perform, opIdset, State.nextOp, hk]; rfl)
  · exact exec_at rfl h hk rfl (perform_finish d s)

/-! ## A whole `IDENTIFY` (R236, R238) -/

/-- A byte's top nibble, as an ID, is 3 exactly when it is as a number. -/
theorem ofNat_div_sixteen_eq_three_iff (b : Byte) :
    BitVec.ofNat 4 (b.toNat / 16) = 3#4 ↔ b.toNat / 16 = 3 := by
  bv_omega

/-- In fourteen calm turns `IDENTIFY` comes to its `FINISH`, the identity settled by the top nibble of the
fourth received byte of the frame. -/
theorem afterCalm_identify {s : State} {g m0 m1 m2 t : Byte} {rest : List Input} (hk : s.upc = 0)
    (hscript : s.script = [g, g, g, g, m0, m1, m2, t, g, g, g, g, g, g].map calmTurn ++ rest) :
    afterCalm (expandIdentify.take 14) [g, g, g, g, m0, m1, m2, t, g, g, g, g, g, g] s = { s with
      script := rest, tick := s.tick + 14
      rxBuf := ⟨t, 0x00, 0x00⟩, rxdata := t, cs1 := .deasserted
      idNibble := BitVec.ofNat 4 (t.toNat / 16)
      idst := if t.toNat / 16 = 3 then .ok else .halted
      err := if t.toNat / 16 = 3 then s.err else .errIdMismatch
      upc := 14
      trace := s.trace ++ [.cs1 .asserted, .x1 (0x10 + Config.statusAddr.zeroExtend 8) m0 false,
        .x1 0x00 m1 false, .x1 0xFF m2 false, .x1 Config.rxFill t false, .cs1 .deasserted, .delay 100,
        .tele (.banner (decide (t.toNat / 16 = 3)))] } := by
  have haccept (m : Byte) : (Draw.calm m).accept = true := rfl
  simp [expandIdentify, rregFrame, frame, afterCalm, perform_gate_of_readyIn,
    perform_xchg_discard_of_sentBy, perform_xchg_rx0_of_sentBy, readyIn_calm, sentBy_calm, perform_clrrx,
    perform_csa, perform_csd, perform_delay, perform_setrx, perform_idchk, perform_teleBanner, haccept,
    perform_idset, passes, clears, selects, sends, keeps0, deselects, logs, State.advance,
    readOpcode_eq_add, Config.tRreg, Config.expectedId, hk, hscript, ofNat_div_sixteen_eq_three_iff]

theorem goesOnWhenCalm_identify : ∀ op ∈ expandIdentify.take 14, goesOnWhenCalm op = true := by
  simp [expandIdentify, rregFrame, frame, goesOnWhenCalm]

/-- Settles O32: the word is accepted in UNCHECKED, fourteen calm turns take the command to its `FINISH`, and
the fifteenth ends it. -/
theorem identifyRunSettlesIdentity : Obligations.IdentifyRunSettlesIdentity := by
  intro s g m0 m1 m2 t rest hb hid hscript
  have hin : s.input = .hostWrite 0 4 0x50000000 := by rw [State.input, hscript]
  have hturns {u : State} (hu : u.script = s.script.tail) : u.script =
      [g, g, g, g, m0, m1, m2, t, g, g, g, g, g, g].map calmTurn ++ calmTurn g :: rest := by
    rw [hu, hscript]; rfl
  rw [run_accept hin hb (c := .identify) rfl (by rw [hid]; rfl)]
  refine (run_calmTurns (later := [.finish]) 1 rfl goesOnWhenCalm_identify rfl rfl (hturns rfl)).trans ?_
  rw [afterCalm_identify rfl (hturns rfl), run_seq rfl rfl rfl, perform_finish]
  simp [ends, Host.Core.run, State.advance, hb]

end Sys2Proof.Machine
end

section
/-! The conversion pipeline, step by step: each step of `CONFIGURE`, `RDATA` and `ACQUIRE` against its listing
(43_conversion.md R250, R255, R272). -/

namespace Sys2Proof.Machine

open Sys2Proof.Statements

/-! ## The micro-operations of a conversion and a push, in the listings' terms -/

/-- A granted exchange without error keeps its byte at the position's index (40_bus_transaction.md R176). -/
theorem perform_xchg_rx_of_sentBy {d : Draw} (h : sentBy d) (i : Fin 3) (s : State) :
    perform (.xchg Config.rxFill (.rx i)) d s = { s with
      rxBuf := setByte s.rxBuf i d.miso
      trace := s.trace ++ [.x1 Config.rxFill d.miso d.xerr], upc := s.upc + 1 } := by
  obtain ⟨hgrant, hxerr⟩ := h
  simp [perform, opXchg, hgrant, hxerr, storeRx, State.emit, State.nextOp]

theorem perform_xchg_rx1_of_sentBy {d : Draw} (h : sentBy d) (s : State) :
    perform (.xchg Config.rxFill (.rx 1)) d s = keeps1 d s :=
  perform_xchg_rx_of_sentBy h 1 s

theorem perform_xchg_rx2_of_sentBy {d : Draw} (h : sentBy d) (s : State) :
    perform (.xchg Config.rxFill (.rx 2)) d s = keeps2 d s :=
  perform_xchg_rx_of_sentBy h 2 s

/-- The received value is the spec's sum (43_conversion.md R257). -/
theorem decodeSample_eq_ofNat_sumOf (b : Bytes3) : decodeSample b = BitVec.ofNat 24 (sumOf b) := by
  rw [sumOf, ← decodeSample_toNat, BitVec.ofNat_toNat, BitVec.setWidth_eq]

theorem perform_decode (d : Draw) (s : State) : perform .decode d s = decodes s := by
  rw [decodes, ← decodeSample_eq_ofNat_sumOf]; rfl

/-- A pushed byte is the value shifted and masked (44_forwarding.md R291). -/
theorem extractLsb'_eq_sampleByte (v : Sample) (lo : Nat) : v.extractLsb' lo 8 = sampleByte v lo :=
  BitVec.eq_of_toNat_eq (by simp [sampleByte])

theorem splitSample_eq_sampleBytes (v : Sample) :
    splitSample v = ⟨sampleByte v 16, sampleByte v 8, sampleByte v 0⟩ := by
  simp only [splitSample, extractLsb'_eq_sampleByte]

/-- The bytes of the received value are the received ones in reverse (44_forwarding.md R304). -/
theorem sampleBytes_ofNat_sumOf (b : Bytes3) : sampleByte (.ofNat 24 (sumOf b)) 16 = b.b2 ∧
    sampleByte (.ofNat 24 (sumOf b)) 8 = b.b1 ∧ sampleByte (.ofNat 24 (sumOf b)) 0 = b.b0 := by
  have h := splitSample_decodeSample b
  rw [decodeSample_eq_ofNat_sumOf, splitSample_eq_sampleBytes] at h
  simpa using h

/-- An `IRQWAIT` passes when no interrupt is pending (R292). -/
theorem perform_irqwait_of_not_pending {s : State} (h : s.irqPending = false) (d : Draw) :
    perform .irqwait d s = passes s := by
  simp [perform, opIrqwait, h, passes, State.nextOp]

theorem perform_sela (d : Draw) (s : State) : perform .sela d s = assertsSel2 s := rfl

theorem perform_seld (d : Draw) (s : State) : perform .seld d s = deassertsSel2 s := rfl

theorem perform_arm2 (src : Arm2Src) (d : Draw) (s : State) :
    perform (.arm2 src) d s = arms (armValue s src) s := by
  rw [perform, opArm2, splitSample_eq_sampleBytes]; rfl

/-- A `POLL2` passes when the transfer is complete and no timeout is drawn (44_forwarding.md R295). -/
theorem perform_poll2_of_complete {d : Draw} {s : State} (h : s.x2Busy = false ∧ d.expire = false) :
    perform .poll2 d s = passes s := by
  obtain ⟨hx, hexpire⟩ := h
  simp [perform, opPoll2, hx, hexpire, passes, State.nextOp]

/-- A report goes out when the sink accepts it (40_bus_transaction.md R184). -/
theorem perform_tele_of_accept {d : Draw} (h : d.accept = true) (e : TeleExpr) (s : State) :
    perform (.tele e) d s = logs (.tele (teleValue s e)) s := by
  rw [perform, opTele, if_pos h]; rfl

/-! ## The listings, step by step -/

/-- Settles O18, at each index of the listing. -/
theorem configureSteps : Obligations.ConfigureSteps := by
  intro s d h hlt hready hsent
  unfold afterConfigure
  interval_cases hk : s.upc
  · exact exec_at rfl h hk rfl (perform_gate_of_readyIn (hready rfl) s)
  · exact exec_at rfl h hk rfl (perform_csa d s)
  · rw [← writeOpcode_eq_add]
    exact exec_at rfl h hk rfl (perform_xchg_discard_of_sentBy (hsent (by decide) (by decide)) _ s)
  iterate 5
    exact exec_at rfl h hk rfl (perform_xchg_discard_of_sentBy (hsent (by decide) (by decide)) _ s)
  · exact exec_at rfl h hk rfl (perform_csd d s)
  · exact exec_at rfl h hk rfl (perform_delay _ d s)
  · exact exec_at rfl h hk rfl (perform_finish d s)

/-- Settles O19, at each index of the listing. -/
theorem rdataSteps : Obligations.RdataSteps := by
  intro s d h hlt hready hsent
  unfold afterRdata
  interval_cases hk : s.upc
  · exact exec_at rfl h hk rfl (perform_delay _ d s)
  · exact exec_at rfl h hk rfl (perform_gate_of_readyIn (hready rfl) s)
  · exact exec_at rfl h hk rfl (perform_clrrx d s)
  · exact exec_at rfl h hk rfl (perform_csa d s)
  · exact exec_at rfl h hk rfl (perform_xchg_discard_of_sentBy (hsent (by decide) (by decide)) _ s)
  · exact exec_at rfl h hk rfl (perform_xchg_rx0_of_sentBy (hsent (by decide) (by decide)) s)
  · exact exec_at rfl h hk rfl (perform_xchg_rx1_of_sentBy (hsent (by decide) (by decide)) s)
  · exact exec_at rfl h hk rfl (perform_xchg_rx2_of_sentBy (hsent (by decide) (by decide)) s)
  · exact exec_at rfl h hk rfl (perform_csd d s)
  · exact exec_at rfl h hk rfl (perform_decode d s)
  · exact exec_at rfl h hk rfl (perform_delay _ d s)
  · exact exec_at rfl h hk rfl (perform_finish d s)

/-- Settles O20, at each index of the listing: the one `GATE` is the readout's, after the three frames
(43_conversion.md R272, 70_reset_and_hazards.md R402). -/
theorem acquireSteps : Obligations.AcquireSteps := by
  intro s d ch h hlt hsent hready hpending hcomplete haccept
  have at_op {op : MicroOp} {t : State} (hop : (expandAcquire ch)[s.upc]? = some op)
      (ht : perform op d s = t) : exec (.acquire ch) s = .next t := exec_at rfl h rfl hop ht
  unfold afterAcquire
  interval_cases s.upc
  · exact at_op rfl (perform_csa d s)
  · rw [← writeOpcode_eq_add]
    exact at_op rfl (perform_xchg_discard_of_sentBy (hsent (by decide)) _ s)
  · exact at_op rfl (perform_xchg_discard_of_sentBy (hsent (by decide)) _ s)
  · exact at_op rfl (perform_xchg_discard_of_sentBy (hsent (by decide)) _ s)
  · exact at_op rfl (perform_csd d s)
  · exact at_op rfl (perform_csa d s)
  · exact at_op rfl (perform_xchg_discard_of_sentBy (hsent (by decide)) _ s)
  · exact at_op rfl (perform_csd d s)
  · exact at_op rfl (perform_csa d s)
  · exact at_op rfl (perform_xchg_discard_of_sentBy (hsent (by decide)) _ s)
  · exact at_op rfl (perform_csd d s)
  · exact at_op rfl (perform_delay _ d s)
  · exact at_op rfl (perform_gate_of_readyIn (hready rfl) s)
  · exact at_op rfl (perform_clrrx d s)
  · exact at_op rfl (perform_csa d s)
  · exact at_op rfl (perform_xchg_discard_of_sentBy (hsent (by decide)) _ s)
  · exact at_op rfl (perform_xchg_rx0_of_sentBy (hsent (by decide)) s)
  · exact at_op rfl (perform_xchg_rx1_of_sentBy (hsent (by decide)) s)
  · exact at_op rfl (perform_xchg_rx2_of_sentBy (hsent (by decide)) s)
  · exact at_op rfl (perform_csd d s)
  · exact at_op rfl (perform_decode d s)
  · exact at_op rfl (perform_delay _ d s)
  · exact at_op rfl (perform_irqwait_of_not_pending (hpending rfl) d)
  · exact at_op rfl (perform_sela d s)
  · exact at_op rfl (perform_arm2 .fromSample d s)
  · exact at_op rfl (perform_poll2_of_complete (hcomplete rfl))
  · exact at_op rfl (perform_seld d s)
  · exact at_op rfl (perform_tele_of_accept (haccept rfl) .sampleOut s)
  · exact at_op rfl (perform_finish d s)

end Sys2Proof.Machine
end

section
/-! A whole `ACQUIRE` (43_conversion.md R272 to R277) as its acceptance, its calm turns up to the push, the push
to its third byte, and its end with or without the handler's turn. -/

namespace Sys2Proof.Machine

open Sys2Proof.Statements

/-! ## The turns of a push -/

/-- `Remote` sends an armed byte that is not the third (44_forwarding.md R299). -/
theorem remoteStep_next {s : State} {r b : Byte} {x : Fin 4} (hx : s.x2Busy = true) (hi : s.x2Idx = x)
    (hb : byteAt s.tx2Buf x.val = some b) (h2 : x ≠ 2) : remoteStep r s =
      .next { s with x2Idx := x + 1, trace := s.trace ++ [.x2 b false] } := by
  simp [remoteStep, hx, hi, hb, h2, State.emit]

/-- `Remote` sends the third byte and completes the transfer (R300). -/
theorem remoteStep_last {s : State} {r : Byte} (hx : s.x2Busy = true) (hi : s.x2Idx = 2) : remoteStep r s =
    .next { s with
      x2Idx := 3, x2Busy := false, irqPending := s.irqPending || s.cirqEn
      trace := s.trace ++ [.x2 s.tx2Buf.b2 false, .done2] } := by
  simp [remoteStep, hx, hi, byteAt, completeTransfer, State.emit]

/-- Three clocks of `Remote` send an armed transfer's bytes and complete it (44_forwarding.md R299, R300). -/
theorem run_threeClocks {n : Nat} {s : State} {r0 r1 r2 : Byte} {rest : List Input} (hx : s.x2Busy = true)
    (hi : s.x2Idx = 0) (hscript : s.script = [.remote r0, .remote r1, .remote r2] ++ rest) :
    Host.Core.run core (n + 3) s = Host.Core.run core n { s with
      script := rest, tick := s.tick + 3, x2Idx := 3, x2Busy := false
      irqPending := s.irqPending || s.cirqEn
      trace := s.trace ++ [.x2 s.tx2Buf.b0 false, .x2 s.tx2Buf.b1 false, .x2 s.tx2Buf.b2 false, .done2] } := by
  obtain ⟨⟩ := s
  cases hx; cases hi; cases hscript
  refine (run_remote rfl (remoteStep_next (x := 0) rfl rfl rfl (by decide))).trans ?_
  refine (run_remote rfl (remoteStep_next (x := 1) rfl rfl rfl (by decide))).trans ?_
  rw [run_remote rfl (remoteStep_last rfl rfl)]
  simp [State.advance]

/-- A push of the value `v` from its `IRQWAIT` to its third byte, whatever the draws (R290 to R300). -/
theorem run_push {n : Nat} {s : State} {c : Cmd} {src : Arm2Src} {v : Sample} {later : List MicroOp}
    {d0 d1 d2 : Draw} {r0 r1 r2 : Byte} {rest : List Input} (hc : s.cur = some c)
    (hnext : (expand c).drop s.upc = pushOps src ++ later) (hp : s.irqPending = false)
    (hv : armValue s src = v)
    (hscript : s.script =
      [.seq d0, .seq d1, .seq d2] ++ ([.remote r0, .remote r1, .remote r2] ++ rest)) :
    Host.Core.run core (n + 6) s = Host.Core.run core n { s with
      script := rest, tick := s.tick + 6, upc := s.upc + 3, sel2 := .asserted
      tx2Buf := ⟨sampleByte v 16, sampleByte v 8, sampleByte v 0⟩, x2Idx := 3, x2Busy := false
      irqPending := s.cirqEn
      trace := s.trace ++ [.sel2 .asserted .seq, .arm2 (sampleByte v 16) (sampleByte v 8) (sampleByte v 0),
        .x2 (sampleByte v 16) false, .x2 (sampleByte v 8) false, .x2 (sampleByte v 0) false, .done2] } := by
  have hop (j : Nat) : (expand c)[s.upc + j]? = (pushOps src ++ later)[j]? := by
    rw [← hnext, List.getElem?_drop]
  obtain ⟨⟩ := s
  cases hc; cases hp; cases hv; cases hscript
  refine (run_seq rfl rfl (hop 0)).trans ?_
  refine (run_seq rfl rfl (hop 1)).trans ?_
  refine (run_seq rfl rfl (hop 2)).trans ?_
  rw [perform_irqwait_of_not_pending rfl, perform_sela, perform_arm2, run_threeClocks rfl rfl rfl]
  simp [passes, assertsSel2, arms, State.advance, armValue, Nat.add_assoc]

/-- The state after a turn of `Seq` with a command running, or of the handler. -/
def afterTurn (s : State) : Option State :=
  match s.input, nextMicroOp s with
  | .seq d, some op => some (perform op d s).advance
  | .irq, _ => some (irqStep s).advance
  | _, _ => none

/-- A run goes on from such a turn. -/
theorem run_turn {n : Nat} {s t : State} (h : afterTurn s = some t) :
    Host.Core.run core (n + 1) s = Host.Core.run core n t := by
  unfold afterTurn at h
  split at h
  next d op hin hop =>
    cases h
    obtain ⟨c, hc, hop⟩ := cur_of_nextMicroOp hop
    exact run_seq hin hc hop
  next hin =>
    cases h
    exact run_irq hin
  next => cases h

/-! ## A whole `ACQUIRE` -/

theorem goesOnWhenCalm_acquire (ch : Nibble) :
    ∀ op ∈ (expandAcquire ch).take 22, goesOnWhenCalm op = true := by
  simp [expandAcquire, wregFrame, opcodeFrame, readDataOps, rdataFrame, frame, goesOnWhenCalm]

/-- In 22 calm turns `ACQUIRE ch` comes to its push, the sample the sum of the three kept bytes; the events are
those of the cycle between the acceptance and the push (43_conversion.md R272). -/
theorem afterCalm_acquire {s : State} {ch : Nibble} {g b0 b1 b2 : Byte} {rest : List Input} (hk : s.upc = 0)
    (hscript : s.script = (List.replicate 16 g ++ [b0, b1, b2, g, g, g]).map calmTurn ++ rest) :
    afterCalm ((expandAcquire ch).take 22) (List.replicate 16 g ++ [b0, b1, b2, g, g, g]) s = { s with
      script := rest, tick := s.tick + 22
      rxBuf := ⟨b0, b1, b2⟩, sample := BitVec.ofNat 24 (sumOf ⟨b0, b1, b2⟩), cs1 := .deasserted, upc := 22
      trace := s.trace ++ ((acquireEvents ch g b0 b1 b2).take 20).tail } := by
  simp [expandAcquire, wregFrame, opcodeFrame, readDataOps, rdataFrame, frame, afterCalm, perform_csa,
    perform_csd, perform_xchg_discard_of_sentBy, perform_xchg_rx0_of_sentBy, perform_xchg_rx1_of_sentBy,
    perform_xchg_rx2_of_sentBy, perform_delay, perform_gate_of_readyIn, perform_clrrx, perform_decode,
    sentBy_calm, readyIn_calm, selects, deselects, sends, keeps0, keeps1, keeps2, logs, passes, clears,
    decodes, State.advance, acquireEvents, writeOpcode_eq_add, Config.tPretrig, Config.tPosttrig, hk, hscript]

/-- An `ACQUIRE ch` with its three bytes pushed, before its `POLL2`. -/
def acquirePushed (ch : Nibble) (g b0 b1 b2 : Byte) (rest : List Input) (s : State) : State :=
  { s with
    script := rest, tick := s.tick + 29, busy := true, cur := some (.acquire ch), upc := 25, err := .errNone
    rxBuf := ⟨b0, b1, b2⟩, sample := BitVec.ofNat 24 (sumOf ⟨b0, b1, b2⟩), tx2Buf := ⟨b2, b1, b0⟩
    x2Idx := 3, x2Busy := false, irqPending := s.cirqEn, cs1 := .deasserted, sel2 := .asserted
    trace := s.trace ++ acquireEvents ch g b0 b1 b2 }

/-- The word is accepted, 22 calm turns take the command to its push, and the push sends the received bytes in
reverse. -/
theorem run_acquirePushed {n : Nat} {s : State} {ch : Nibble} {g b0 b1 b2 r : Byte} {rest : List Input}
    (hb : s.busy = false) (hid : s.idst = .ok) (hp : s.irqPending = false)
    (hch : ch.toNat < Config.numChannels)
    (hscript : s.script = .hostWrite 0 4 (encodeCmd (.acquire ch)) ::
      (acquireTurns g b0 b1 b2 ++ [.remote r, .remote r, .remote r] ++ rest)) :
    Host.Core.run core (n + 29) s =
      Host.Core.run core n (acquirePushed ch g b0 b1 b2 rest s) := by
  have hd : decodeCmd (encodeCmd (.acquire ch)) = .ok (.acquire ch) :=
    (decodeCmd_encodeCmd _).trans (if_pos (by simpa [Instr.wellFormed, instrOf]))
  have hin : s.input = .hostWrite 0 4 (encodeCmd (.acquire ch)) := by rw [State.input, hscript]
  have hturns {t : State} (ht : t.script = s.script.tail) : t.script =
      (List.replicate 16 g ++ [b0, b1, b2, g, g, g]).map calmTurn ++
        ([g, g, g].map calmTurn ++ ([.remote r, .remote r, .remote r] ++ rest)) := by
    rw [ht, hscript]; rfl
  refine (run_accept hin hb hd (by rw [hid]; rfl)).trans ?_
  refine (run_calmTurns (n + 6) rfl (goesOnWhenCalm_acquire ch) rfl rfl (hturns rfl)).trans ?_
  rw [afterCalm_acquire rfl (hturns rfl),
    run_push (later := [.tele .sampleOut, .finish]) rfl rfl (by exact hp) rfl rfl]
  simp [acquirePushed, acquireEvents, State.advance, armValue, sampleBytes_ofNat_sumOf]

/-- The end of `ACQUIRE` from its `POLL2` with the transfer complete, without a turn of the handler
(43_conversion.md R272). -/
theorem run_acquireEnd {t : State} {ch : Nibble} {g : Byte} {rest : List Input}
    (hc : t.cur = some (.acquire ch)) (hupc : t.upc = 25) (hx : t.x2Busy = false)
    (hscript : t.script = (List.replicate 4 g).map calmTurn ++ rest) :
    Host.Core.run core 4 t = .next { t with
      script := rest, tick := t.tick + 4, sel2 := .deasserted
      busy := false, cur := none, upc := 0, failCount := 0
      trace := t.trace ++ [.sel2 .deasserted .seq, .tele (.sampleOut t.sample), .finish] } := by
  obtain ⟨⟩ := t
  cases hc; cases hupc; cases hx; cases hscript
  rw [run_turn rfl, run_turn rfl, run_turn rfl, run_turn rfl]
  simp [Host.Core.run, perform_poll2_of_complete, perform_seld, perform_tele_of_accept, perform_finish, passes,
    deassertsSel2, logs, ends, teleValue, State.advance]

/-- The same end with the completion pending, and the handler's turn at any place `k` in it
(44_forwarding.md R303). -/
theorem run_acquireEnd_handlerAt {t : State} {ch : Nibble} {g : Byte} {k : Nat} {rest : List Input}
    (hc : t.cur = some (.acquire ch)) (hupc : t.upc = 25) (hx : t.x2Busy = false) (hp : t.irqPending = true)
    (hscript : t.script = handlerAt k ((List.replicate 4 g).map calmTurn) ++ rest) (hk : k ≤ 4) :
    Host.Core.run core 5 t = .next { t with
      script := rest, tick := t.tick + 5, sel2 := .deasserted, irqPending := false
      busy := false, cur := none, upc := 0, failCount := 0
      trace := t.trace ++ handlerEventAt k
        [[], [.sel2 .deasserted .seq], [.tele (.sampleOut t.sample)], [.finish]] } := by
  obtain ⟨⟩ := t
  cases hc; cases hupc; cases hx; cases hp; cases hscript
  interval_cases k
  -- Each place fixes the order of the five turns, so each of them computes.
  all_goals
    rw [run_turn rfl, run_turn rfl, run_turn rfl, run_turn rfl, run_turn rfl]
    simp [Host.Core.run, perform_poll2_of_complete, perform_seld, perform_tele_of_accept, perform_finish,
      passes, deassertsSel2, logs, ends, teleValue, irqStep, State.emit, State.advance, handlerAt,
      handlerEventAt]

/-- Settles O34: the cycle up to its third pushed byte is the same with and without the completion interrupt;
the ends differ in the handler's turn. -/
theorem acquireRunPerformsCycle : Obligations.AcquireRunPerformsCycle := by
  intro s ch g b0 b1 b2 r k rest hb hid hp hch hk
  constructor
  · intro hcirq
    rw [run_acquirePushed (n := 5) (rest := handlerAt k ((List.replicate 4 g).map calmTurn) ++ rest)
      (by exact hb) (by exact hid) (by exact hp) hch rfl, run_acquireEnd_handlerAt rfl rfl rfl hcirq rfl hk]
    simp [acquirePushed, hb, hp]
  · intro hcirq
    rw [run_acquirePushed (n := 4) (rest := (List.replicate 4 g).map calmTurn ++ rest)
      (by exact hb) (by exact hid) (by exact hp) hch rfl, run_acquireEnd rfl rfl rfl rfl]
    simp [acquirePushed, hb, hp, hcirq]

end Sys2Proof.Machine
end

section
/-! The Forwarding Bridge (44_forwarding.md): the clocks of `Remote`, every `POLL2`, each step of `FORWARD` against
its listing, the orders of the two deasserts of `SEL2`, and a whole `FORWARD` as its acceptance, its push to the
third byte, and its end with or without the handler's turn. -/

namespace Sys2Proof.Machine

open Sys2Proof.Statements

/-! ## The responder (R299, R300) -/

/-- A clock of `Remote` steps to the state its rule gives. -/
theorem stepsTo_remote {s t : State} {r : Byte} (h : s.input = .remote r) (ht : remoteStep r s = .next t) :
    stepsTo s t :=
  ⟨t.advance, by rw [step_remote h, ht]; rfl, rfl⟩

/-- Settles O29, at each index of the armed transfer and with nothing armed. -/
theorem remoteClockStep : Obligations.RemoteClockStep := by
  intro s r h
  refine ⟨fun hx => ⟨fun hi => ?_, fun hi => ?_, fun hi => ?_⟩, fun hx => ?_⟩
  · exact stepsTo_remote h (remoteStep_next hx hi rfl (by decide))
  · exact stepsTo_remote h (remoteStep_next hx hi rfl (by decide))
  · have hpending : (s.irqPending || s.cirqEn) = if s.cirqEn = true then true else s.irqPending := by
      cases s.cirqEn <;> simp
    rw [← hpending]
    exact stepsTo_remote h (remoteStep_last hx hi)
  · exact stepsTo_remote h (by simp [remoteStep, hx, State.emit])

/-- Settles O44: the invariant holds after reset, whatever the script, and an armed transfer keeps `SEL2`. -/
theorem sel2HeldWhileArmed : Obligations.Sel2HeldWhileArmed := by
  intro n inputs t hrun
  have h0 : Inv { State.reset with script := inputs } := { invariantHoldsAtReset with }
  exact (h0.of_run hrun).armed_sel2

/-! ## The poll (R295, R296) -/

/-- Settles O25: the abort of a `POLL2` finds `CS1` deasserted. -/
theorem secondaryPollStep : Obligations.SecondaryPollStep := by
  intro s d c h hruns hnext
  have ⟨hc, _⟩ := hruns
  have hop := (nextMicroOp_some hc).symm.trans hnext
  have hcs := h.cs1_idle hc hop nofun nofun
  rw [exec_of_runs hruns hnext, perform, opPoll2, abort_poll_eq]
  simp only [Bool.and_eq_true, Option.isSome_iff_ne_none]
  refine congrArg _ (ite_congr rfl (fun _ => ?_) fun _ => rfl)
  simp [abortEvents, hcs]

/-! ## The listing, step by step (R290) -/

/-- Settles O21, at each index of the listing. -/
theorem forwardSteps : Obligations.ForwardSteps := by
  intro s d v h hlt hpending hcomplete
  unfold afterForward
  interval_cases hk : s.upc
  · exact exec_at rfl h hk rfl (perform_irqwait_of_not_pending (hpending rfl) d)
  · exact exec_at rfl h hk rfl (perform_sela d s)
  · exact exec_at rfl h hk rfl (perform_arm2 (.imm v) d s)
  · exact exec_at rfl h hk rfl (perform_poll2_of_complete (hcomplete rfl))
  · exact exec_at rfl h hk rfl (perform_seld d s)
  · exact exec_at rfl h hk rfl (perform_finish d s)

/-! ## The two deasserts of `SEL2` (R303) -/

/-- The end of `FORWARD` from its `SELD` with the completion pending, the handler's turn at any place `k`. -/
theorem run_forwardSeld_handlerAt {s : State} {v : Sample} {d0 d1 : Draw} {k : Nat} {rest : List Input}
    (hc : s.cur = some (.forward v)) (hupc : s.upc = 4) (hp : s.irqPending = true) (hk : k ≤ 2)
    (hscript : s.script = handlerAt k [.seq d0, .seq d1] ++ rest) :
    Host.Core.run core 3 s = .next { s with
      script := rest, tick := s.tick + 3, sel2 := .deasserted, irqPending := false
      busy := false, cur := none, upc := 0, failCount := 0
      trace := s.trace ++ handlerEventAt k [[.sel2 .deasserted .seq], [.finish]] } := by
  obtain ⟨⟩ := s
  cases hc; cases hupc; cases hp; cases hscript
  interval_cases k
  -- Each place fixes the order of the turns, so each of them computes.
  all_goals
    rw [run_turn rfl, run_turn rfl, run_turn rfl]
    simp [Host.Core.run, perform_seld, perform_finish, deassertsSel2, ends, irqStep, State.emit, State.advance,
      handlerAt, handlerEventAt]

/-- The same for `ACQUIRE`, whose report stands between `SELD` and `FINISH` (43_conversion.md R272). -/
theorem run_acquireSeld_handlerAt {s : State} {ch : Nibble} {d0 d1 d2 : Draw} {k : Nat} {rest : List Input}
    (hc : s.cur = some (.acquire ch)) (hupc : s.upc = 26) (hp : s.irqPending = true)
    (haccept : d1.accept = true) (hk : k ≤ 3)
    (hscript : s.script = handlerAt k [.seq d0, .seq d1, .seq d2] ++ rest) :
    Host.Core.run core 4 s = .next { s with
      script := rest, tick := s.tick + 4, sel2 := .deasserted, irqPending := false
      busy := false, cur := none, upc := 0, failCount := 0
      trace := s.trace ++ handlerEventAt k
        [[.sel2 .deasserted .seq], [.tele (.sampleOut s.sample)], [.finish]] } := by
  obtain ⟨⟩ := s
  obtain ⟨⟩ := d1
  cases hc; cases hupc; cases hp; cases haccept; cases hscript
  interval_cases k
  all_goals
    rw [run_turn rfl, run_turn rfl, run_turn rfl, run_turn rfl]
    simp [Host.Core.run, perform_seld, perform_tele_of_accept, perform_finish, deassertsSel2, logs, ends,
      teleValue, irqStep, State.emit, State.advance, handlerAt, handlerEventAt]

/-- Settles O30: for each command the end is the same, the handler's turn at every place in it. -/
theorem deassertOrdersAgree : Obligations.DeassertOrdersAgree :=
  ⟨fun _ _ _ _ _ _ hc hupc hp hk => run_forwardSeld_handlerAt hc hupc hp hk rfl,
    fun _ _ _ _ _ _ _ hc hupc hp haccept hk => run_acquireSeld_handlerAt hc hupc hp haccept hk rfl⟩

/-! ## A whole `FORWARD` (R301 to R305) -/

/-- A `FORWARD v` with its three bytes pushed, before its `POLL2`. -/
def forwardPushed (v : Sample) (rest : List Input) (s : State) : State :=
  { s with
    script := rest, tick := s.tick + 7, busy := true, cur := some (.forward v), upc := 3, err := .errNone
    tx2Buf := ⟨sampleByte v 16, sampleByte v 8, sampleByte v 0⟩, x2Idx := 3, x2Busy := false
    irqPending := s.cirqEn, sel2 := .asserted
    trace := s.trace ++ [.accept (encodeCmd (.forward v)), .sel2 .asserted .seq,
      .arm2 (sampleByte v 16) (sampleByte v 8) (sampleByte v 0),
      .x2 (sampleByte v 16) false, .x2 (sampleByte v 8) false, .x2 (sampleByte v 0) false, .done2] }

/-- The word is accepted, and the push sends the three bytes of its operand. -/
theorem run_forwardPushed {n : Nat} {s : State} {v : Sample} {d : Draw} {r0 r1 r2 : Byte} {rest : List Input}
    (hb : s.busy = false) (hid : s.idst = .ok) (hp : s.irqPending = false)
    (hscript : s.script = .hostWrite 0 4 (encodeCmd (.forward v)) ::
      ([.seq d, .seq d, .seq d, .remote r0, .remote r1, .remote r2] ++ rest)) :
    Host.Core.run core (n + 7) s = Host.Core.run core n (forwardPushed v rest s) := by
  have hd : decodeCmd (encodeCmd (.forward v)) = .ok (.forward v) :=
    (decodeCmd_encodeCmd _).trans (if_pos rfl)
  have hin : s.input = .hostWrite 0 4 (encodeCmd (.forward v)) := by rw [State.input, hscript]
  refine (run_accept hin hb hd (by rw [hid]; rfl)).trans ?_
  rw [run_push (src := .imm v) (v := v) (rest := rest) (later := [.finish]) rfl rfl (by exact hp) rfl
    (congrArg List.tail hscript)]
  simp [forwardPushed, State.advance]

/-- The end of `FORWARD` from its `POLL2` with the transfer complete, without a turn of the handler. -/
theorem run_forwardEnd {t : State} {v : Sample} {d : Draw} {rest : List Input}
    (hc : t.cur = some (.forward v)) (hupc : t.upc = 3) (hx : t.x2Busy = false) (hd : d.expire = false)
    (hscript : t.script = [.seq d, .seq d, .seq d] ++ rest) :
    Host.Core.run core 3 t = .next { t with
      script := rest, tick := t.tick + 3, sel2 := .deasserted
      busy := false, cur := none, upc := 0, failCount := 0
      trace := t.trace ++ [.sel2 .deasserted .seq, .finish] } := by
  obtain ⟨⟩ := t
  obtain ⟨⟩ := d
  cases hc; cases hupc; cases hx; cases hd; cases hscript
  rw [run_turn rfl, run_turn rfl, run_turn rfl]
  simp [Host.Core.run, perform_poll2_of_complete, perform_seld, perform_finish, passes, deassertsSel2, ends,
    State.advance]

/-- The same end with the completion pending, and the handler's turn at any place `k` in it (R303). -/
theorem run_forwardEnd_handlerAt {t : State} {v : Sample} {d : Draw} {k : Nat} {rest : List Input}
    (hc : t.cur = some (.forward v)) (hupc : t.upc = 3) (hx : t.x2Busy = false) (hp : t.irqPending = true)
    (hd : d.expire = false) (hscript : t.script = handlerAt k [.seq d, .seq d, .seq d] ++ rest)
    (hk : k ≤ 3) :
    Host.Core.run core 4 t = .next { t with
      script := rest, tick := t.tick + 4, sel2 := .deasserted, irqPending := false
      busy := false, cur := none, upc := 0, failCount := 0
      trace := t.trace ++ handlerEventAt k [[], [.sel2 .deasserted .seq], [.finish]] } := by
  obtain ⟨⟩ := t
  obtain ⟨⟩ := d
  cases hc; cases hupc; cases hx; cases hp; cases hd; cases hscript
  interval_cases k
  all_goals
    rw [run_turn rfl, run_turn rfl, run_turn rfl, run_turn rfl]
    simp [Host.Core.run, perform_poll2_of_complete, perform_seld, perform_finish, passes, deassertsSel2, ends,
      irqStep, State.emit, State.advance, handlerAt, handlerEventAt]

/-- Settles O33: the run up to its third pushed byte is the same with and without the completion interrupt; the
ends differ in the handler's turn. -/
theorem forwardRunPushesThreeBytes : Obligations.ForwardRunPushesThreeBytes := by
  intro s v d r0 r1 r2 k rest hb hid hp hd hk
  constructor
  · intro hcirq
    rw [run_forwardPushed (n := 4) (rest := handlerAt k [.seq d, .seq d, .seq d] ++ rest)
      (by exact hb) (by exact hid) (by exact hp) rfl, run_forwardEnd_handlerAt rfl rfl rfl hcirq hd rfl hk]
    simp [forwardPushed, hb, hp]
  · intro hcirq
    rw [run_forwardPushed (n := 3) (rest := [.seq d, .seq d, .seq d] ++ rest)
      (by exact hb) (by exact hid) (by exact hp) rfl, run_forwardEnd rfl rfl rfl hd rfl]
    simp [forwardPushed, hb, hp, hcirq]

end Sys2Proof.Machine
end

section
/-! What a push carries (44_forwarding.md R301): the stages of a push by the micro-operations its command has left,
the turns that take it through them, and so the events of every `FORWARD` and `ACQUIRE` that finishes. -/

namespace Sys2Proof.Machine

open Sys2Proof.Statements

/-! ## The listing of a push -/

/-- The commands that push a value (44_forwarding.md R290; 43_conversion.md R272). -/
def Cmd.pushes (c : Cmd) : Prop := (∃ v, c = .forward v) ∨ ∃ ch, c = .acquire ch

/-- Where the value such a command arms comes from (44_forwarding.md R294). -/
def Cmd.pushSrc : Cmd → Arm2Src
  | .forward v => .imm v
  | _ => .fromSample

/-- Such a command's micro-operations after its `SELD`. -/
def Cmd.afterPush : Cmd → List MicroOp
  | .forward _ => [.finish]
  | _ => [.tele .sampleOut, .finish]

/-- From its `POLL2` on. -/
def Cmd.fromPoll (c : Cmd) : List MicroOp := .poll2 :: .seld :: c.afterPush

/-- And from its `SELA` on. -/
def Cmd.fromSela (c : Cmd) : List MicroOp := .sela :: .arm2 c.pushSrc :: c.fromPoll

/-- The micro-operations that neither are a push's own nor end a command. -/
def offPush : MicroOp → Bool
  | .sela | .arm2 _ | .poll2 | .seld | .finish => false
  | _ => true

/-- A push is the one in its command's listing, and no end comes before it. -/
theorem Cmd.pushes.expand_eq {c : Cmd} (h : c.pushes) :
    ∃ front, expand c = front ++ c.fromSela ∧ ∀ op ∈ front, offPush op = true := by
  rcases h with ⟨v, rfl⟩ | ⟨ch, rfl⟩
  · exact ⟨[.irqwait], rfl, by simp [offPush]⟩
  · exact ⟨(expandAcquire ch).take 23, rfl, by
      simp [expandAcquire, wregFrame, opcodeFrame, readDataOps, rdataFrame, frame, pushOps, offPush]⟩

/-- The micro-operations command `c` has left in `s`. -/
def opsLeft (c : Cmd) (s : State) : List MicroOp := (expand c).drop s.upc

theorem opsLeft_head {c : Cmd} {s : State} {op : MicroOp} {rest : List MicroOp}
    (h : opsLeft c s = op :: rest) : (expand c)[s.upc]? = some op := by
  rw [← List.head?_drop]
  exact congrArg List.head? h

theorem opsLeft_next {c : Cmd} {s t : State} {op : MicroOp} {rest : List MicroOp}
    (h : opsLeft c s = op :: rest) (hu : t.upc = s.upc + 1) : opsLeft c t = rest := by
  rw [opsLeft, hu, ← List.tail_drop]
  exact congrArg List.tail h

/-- Before its `SELA` a push is all still to come. -/
theorem opsLeft_of_sela_notMem {c : Cmd} {s : State} (h : c.pushes) (hc : s.cur = some c)
    (hs : .sela ∉ doneOps s) :
    ∃ front, opsLeft c s = front ++ c.fromSela ∧ ∀ op ∈ front, offPush op = true := by
  obtain ⟨front, he, hfront⟩ := h.expand_eq
  rw [doneOps_some hc, he] at hs
  have hle : s.upc ≤ front.length := by
    by_contra hlt
    obtain ⟨k, hk⟩ := Nat.exists_eq_add_of_lt (Nat.not_le.1 hlt)
    rw [hk, Nat.add_assoc, List.take_length_add_append] at hs
    simp [Cmd.fromSela] at hs
  exact ⟨front.drop s.upc, by rw [opsLeft, he, List.drop_append_of_le_length hle],
    fun op hop => hfront op (List.mem_of_mem_drop hop)⟩

/-! ## The events of a push -/

/-- The events that neither open a push, nor feed or close it, nor end a command. -/
def isBland (e : Event) : Bool :=
  !isPushed e && !isRelease e && e != .sel2 .asserted .seq && e != .finish

theorem bland_all {es : List Event} (h : es.all isBland = true) :
    es.all (fun e => !isPushed e) = true ∧ es.all (fun e => !isRelease e) = true ∧
    .sel2 .asserted .seq ∉ es ∧ .finish ∉ es := by
  simp only [isBland, List.all_eq_true, Bool.and_eq_true, bne_iff_ne, and_assoc] at h ⊢
  refine ⟨fun e he => ?_, fun e he => ?_, fun he => ?_, fun he => ?_⟩ <;>
    obtain ⟨hpushed, hrelease, hsela, hfinish⟩ := h _ he
  · exact hpushed
  · exact hrelease
  · exact hsela rfl
  · exact hfinish rfl

/-- The events of the three bytes of `v` (R291). -/
def pushEvents (v : Sample) : List Event :=
  [.x2 (sampleByte v 16) false, .x2 (sampleByte v 8) false, .x2 (sampleByte v 0) false]

/-- `SEL2` was asserted after no pushed byte, and the bytes `sent` have been pushed since, without a release. -/
def PushOpen (es sent : List Event) : Prop :=
  ∃ before inside, es = before ++ .sel2 .asserted .seq :: inside ∧
    .sel2 .asserted .seq ∉ before ∧ before.all (fun e => !isPushed e) = true ∧
    inside.all (fun e => !isRelease e) = true ∧ inside.filter isPushed = sent

/-- The three bytes of `v` were pushed, all between the assert of `SEL2` and its first release. -/
def PushClosed (v : Sample) (es : List Event) : Prop :=
  ∃ before inside after agent,
    es = before ++ .sel2 .asserted .seq :: (inside ++ .sel2 .deasserted agent :: after) ∧
    .sel2 .asserted .seq ∉ before ∧ before.all (fun e => !isPushed e) = true ∧
    inside.all (fun e => !isRelease e) = true ∧ inside.filter isPushed = pushEvents v ∧
    after.all (fun e => !isPushed e) = true

theorem PushOpen.of_sela {es : List Event} (hno : .sel2 .asserted .seq ∉ es)
    (hes : es.all (fun e => !isPushed e) = true) : PushOpen (es ++ [.sel2 .asserted .seq]) [] :=
  ⟨es, [], rfl, hno, hes, rfl, rfl⟩

theorem PushOpen.append {es sent es' : List Event} (h : PushOpen es sent)
    (hes : es'.all (fun e => !isRelease e) = true) : PushOpen (es ++ es') (sent ++ es'.filter isPushed) := by
  obtain ⟨before, inside, rfl, hno, hbefore, hinside, rfl⟩ := h
  exact ⟨before, inside ++ es', by simp, hno, hbefore, by rw [List.all_append, hinside, hes]; rfl,
    List.filter_append ..⟩

theorem PushOpen.bland {es sent es' : List Event} (h : PushOpen es sent) (hes : es'.all isBland = true) :
    PushOpen (es ++ es') sent := by
  obtain ⟨hpushed, hrelease, -, -⟩ := bland_all hes
  have hnone : es'.filter isPushed = [] := by simpa using hpushed
  simpa [hnone] using h.append hrelease

theorem PushOpen.release {v : Sample} {es : List Event} (h : PushOpen es (pushEvents v)) (agent : Sel2Agent) :
    PushClosed v (es ++ [.sel2 .deasserted agent]) := by
  obtain ⟨before, inside, rfl, hno, hbefore, hinside, hsent⟩ := h
  exact ⟨before, inside, [], agent, by simp, hno, hbefore, hinside, hsent, rfl⟩

theorem PushClosed.append {v : Sample} {es es' : List Event} (h : PushClosed v es)
    (hes : es'.all (fun e => !isPushed e) = true) : PushClosed v (es ++ es') := by
  obtain ⟨before, inside, after, agent, rfl, hno, hbefore, hinside, hsent, hafter⟩ := h
  exact ⟨before, inside, after ++ es', agent, by simp, hno, hbefore, hinside, hsent,
    by rw [List.all_append, hafter, hes]; rfl⟩

/-- The byte at an index is the one pushed after those before it (R299). -/
theorem take_succ_pushEvents {v : Sample} {k : Nat} {b : Byte}
    (h : byteAt ⟨sampleByte v 16, sampleByte v 8, sampleByte v 0⟩ k = some b) :
    (pushEvents v).take (k + 1) = (pushEvents v).take k ++ [.x2 b false] := by
  rcases k with _ | _ | _ | k <;> cases h <;> rfl

/-! ## The turns of a running command -/

/-- A turn leaves the fields a push reads; where it does not touch them, `{}` says so. -/
structure SamePush (s t : State) : Prop where
  cur : t.cur = s.cur := by rfl
  upc : t.upc = s.upc := by rfl
  x2Busy : t.x2Busy = s.x2Busy := by rfl
  x2Idx : t.x2Idx = s.x2Idx := by rfl
  tx2Buf : t.tx2Buf = s.tx2Buf := by rfl
  sample : t.sample = s.sample := by rfl

/-- What a micro-operation that goes on does to a push, and its events. -/
inductive PushOp (s : State) : MicroOp → State → List Event → Prop where
  /-- One that is no write of `SEL2` or of the transfer. -/
  | passes {op : MicroOp} {t : State} {es : List Event} (g : GoesOn op s t)
      (hop : offPush op = true ∨ op = .poll2) (hsample : op ≠ .decode → t.sample = s.sample)
      (hes : es.all isBland = true) : PushOp s op t es
  | selects : PushOp s .sela (assertsSel2 s).advance [.sel2 .asserted .seq]
  | arms (src : Arm2Src) :
      PushOp s (.arm2 src) (arms (armValue s src) s).advance
        [.arm2 (sampleByte (armValue s src) 16) (sampleByte (armValue s src) 8) (sampleByte (armValue s src) 0)]
  | releases : PushOp s .seld (deassertsSel2 s).advance [.sel2 .deasserted .seq]

/-- What a turn of a command with `op` next does to a push, and its events, where it neither aborts nor ends the
command. -/
inductive PushTurn (s : State) (op : MicroOp) : State → List Event → Prop where
  /-- A hold, or a turn of another agent that does not concern the push. -/
  | keeps {t : State} {es : List Event} (same : SamePush s t) (hes : es.all isBland = true) : PushTurn s op t es
  /-- The completion handler (60_exceptions.md R352). -/
  | handles {t : State} (hp : s.irqPending = true) (same : SamePush s t) :
      PushTurn s op t [.sel2 .deasserted .irq]
  /-- A clock of an armed byte before the last (44_forwarding.md R299). -/
  | sends (b : Byte) (hx : s.x2Busy = true) (hb : byteAt s.tx2Buf s.x2Idx.val = some b) :
      PushTurn s op (State.advance { s with
        x2Idx := s.x2Idx + 1, trace := s.trace ++ [.x2 b false] }) [.x2 b false]
  /-- The clock of the last (R300). -/
  | completes (b : Byte) (hx : s.x2Busy = true) (hb : byteAt s.tx2Buf s.x2Idx.val = some b)
      (hi : s.x2Idx = 2) :
      PushTurn s op (State.advance { s with
        x2Idx := 3, x2Busy := false, irqPending := s.irqPending || s.cirqEn
        trace := s.trace ++ [.x2 b false, .done2] }) [.x2 b false, .done2]
  | performs {t : State} {es : List Event} (h : PushOp s op t es) : PushTurn s op t es

/-- The command runs on after such a turn. -/
theorem PushTurn.runs_on {s t : State} {op : MicroOp} {es : List Event} (turn : PushTurn s op t es) :
    t.cur = s.cur ∧ .finish ∉ es := by
  cases turn with
  | keeps same hes =>
    obtain ⟨-, -, -, hfinish⟩ := bland_all hes
    exact ⟨same.cur, hfinish⟩
  | handles _ same => exact ⟨same.cur, by simp⟩
  | sends | completes => exact ⟨rfl, by simp⟩
  | performs h =>
    cases h with
    | passes g _ _ hes =>
      obtain ⟨-, -, -, hfinish⟩ := bland_all hes
      exact ⟨g.cur, hfinish⟩
    | selects | arms | releases => exact ⟨rfl, by simp⟩

/-- A micro-operation that writes neither `SEL2` nor the transfer aborts, or its events are bland and the command
runs on. -/
theorem perform_bland {op : MicroOp} (d : Draw) (s : State) (hop : offPush op = true ∨ op = .poll2) :
    ∃ es, (perform op d s).trace = s.trace ++ es ∧
      ((∃ e, .abort e ∈ es) ∨ (perform op d s).cur = s.cur ∧ es.all isBland = true) := by
  have aborted (code : ErrCode) (u : State) : ∃ e, Event.abort e ∈ abortEvents code u :=
    ⟨code, abort_mem_abortEvents.2 rfl⟩
  have silent : ∃ es, s.trace = s.trace ++ es ∧
      ((∃ e, .abort e ∈ es) ∨ s.cur = s.cur ∧ es.all isBland = true) :=
    ⟨[], (List.append_nil _).symm, .inr ⟨rfl, rfl⟩⟩
  cases op with
  | sela | arm2 | seld | finish => simp [offPush] at hop
  | xchg b dst =>
    rcases opXchg_cases b dst d s with ⟨-, h⟩ | ⟨-, -, -, h⟩ | ⟨-, -, h⟩ <;> rw [perform, h]
    · exact silent
    · rw [storeRx_eq, abort_xfer_eq]
      obtain ⟨e, he⟩ := aborted .errXfer _
      exact ⟨_, List.append_assoc .., .inl ⟨e, List.mem_append_right _ he⟩⟩
    · rw [storeRx_eq]
      exact ⟨[_], rfl, .inr ⟨rfl, rfl⟩⟩
  | gate =>
    rcases opGate_cases d s with ⟨-, -, h⟩ | ⟨-, h⟩ | ⟨-, h⟩ <;> rw [perform, h]
    · exact abort_gate_eq _ s ▸ ⟨_, rfl, .inl (aborted _ _)⟩
    · exact silent
    · exact silent
  | poll2 =>
    rcases opPoll2_cases d s with ⟨-, -, h⟩ | ⟨-, h⟩ | ⟨-, h⟩ <;> rw [perform, h]
    · exact abort_poll_eq _ s ▸ ⟨_, rfl, .inl (aborted _ _)⟩
    · exact silent
    · exact silent
  | tele e =>
    rcases opTele_cases e d s with ⟨-, h⟩ | ⟨-, h⟩ <;> rw [perform, h]
    · exact ⟨[_], rfl, .inr ⟨rfl, rfl⟩⟩
    · exact silent
  | teleBanner =>
    rcases opTele_cases (.banner (decide (s.idNibble = Config.expectedId))) d s with ⟨-, h⟩ | ⟨-, h⟩ <;>
      rw [perform, opTeleBanner, h]
    · exact ⟨[_], rfl, .inr ⟨rfl, rfl⟩⟩
    · exact silent
  | irqwait => rcases opIrqwait_cases s with ⟨-, h⟩ | ⟨-, h⟩ <;> rw [perform, h] <;> exact silent
  | idset => rcases opIdset_cases s with ⟨-, h⟩ | ⟨-, h⟩ <;> rw [perform, h] <;> exact silent
  | clrrx | setrx | decode | idchk => exact silent
  | csa | csd | delay | rsta | rstd => exact ⟨[_], rfl, .inr ⟨rfl, rfl⟩⟩

/-- What a turn of a command with `op` next can do, and its events. -/
inductive RunningTurn (s : State) (op : MicroOp) (t : State) (es : List Event) : Prop where
  | aborts (e : ErrCode) (he : .abort e ∈ es)
  | finishes (hop : op = .finish) (ht : t = (ends s).advance) (hes : es = [.finish])
  | runs (turn : PushTurn s op t es)

/-- Such a micro-operation aborts, holds or goes on. -/
theorem runningTurn_of_perform_bland {s : State} {c : Cmd} {op : MicroOp} (d : Draw) (hc : s.cur = some c)
    (hop : offPush op = true ∨ op = .poll2) :
    ∃ es, (perform op d s).trace = s.trace ++ es ∧ RunningTurn s op (perform op d s).advance es := by
  obtain ⟨es, htrace, ⟨e, he⟩ | ⟨hcur, hes⟩⟩ := perform_bland d s hop
  · exact ⟨es, htrace, .aborts e he⟩
  refine ⟨es, htrace, .runs ?_⟩
  have answers := performAnswers op d s
  obtain ⟨-, hsample, -⟩ := perform_registers op d s
  generalize perform op d s = t at *
  cases answers with
  | holds _ => exact .keeps {} hes
  | aborts _ _ a => exact nomatch a.cur.symm.trans (hcur.trans hc)
  | finishes h => simp [h, offPush] at hop
  | goesOn _ g => exact .performs (.passes { g with } hop hsample hes)

/-- A Seq turn of a running command is one of these. -/
theorem runningTurn_of_perform {s : State} {c : Cmd} {op : MicroOp} (d : Draw) (hc : s.cur = some c) :
    ∃ es, (perform op d s).trace = s.trace ++ es ∧ RunningTurn s op (perform op d s).advance es := by
  cases op with
  | sela => exact ⟨_, rfl, .runs (.performs .selects)⟩
  | arm2 src =>
    rw [perform_arm2]
    exact ⟨_, rfl, .runs (.performs (.arms src))⟩
  | seld => exact ⟨_, rfl, .runs (.performs .releases)⟩
  | finish => exact ⟨_, rfl, .finishes rfl rfl rfl⟩
  | poll2 => exact runningTurn_of_perform_bland d hc (.inr rfl)
  | _ => exact runningTurn_of_perform_bland d hc (.inl rfl)

/-- A turn of any agent while a command runs is one of these. -/
theorem runningTurn_of_step {s t : State} {c : Cmd} {op : MicroOp} (h : Inv s) (hin : s.input ≠ .blockReset)
    (hc : s.cur = some c) (hop : (expand c)[s.upc]? = some op) (hstep : step s = .next t) :
    ∃ es, t.trace = s.trace ++ es ∧ RunningTurn s op t es := by
  have keeps (u : State) (es : List Event) (same : SamePush s u) (htrace : u.trace = s.trace ++ es)
      (hes : es.all isBland = true) : ∃ es, u.trace = s.trace ++ es ∧ RunningTurn s op u es :=
    ⟨es, htrace, .runs (.keeps same hes)⟩
  cases StepAnswers.of_step hstep with
  | blockReset hr => exact absurd hr hin
  | acceptedWord _ _ _ _ hb _ => simp [h.busy_cur, hc] at hb
  | idleTurn _ _ hnone => exact nomatch hc.symm.trans hnone
  | microOp d c' op' _ hc' hop' =>
    obtain rfl := Option.some.inj (hc.symm.trans hc')
    obtain rfl := Option.some.inj (hop.symm.trans hop')
    exact runningTurn_of_perform d hc
  | handler _ =>
    rcases irqStep_cases s with ⟨hp, e⟩ | ⟨-, e⟩ <;> rw [e]
    · exact ⟨_, rfl, .runs (.handles hp {})⟩
    · exact keeps _ [] {} (by simp) rfl
  | armedByte _ b _ hx hb _ => exact ⟨_, rfl, .runs (.sends b hx hb)⟩
  | lastByte _ b _ hx hb hi => exact ⟨_, rfl, .runs (.completes b hx hb hi)⟩
  | otherWrite off v _ _ _ =>
    unfold registerWrite
    split <;> exact keeps _ [] {} (by simp) rfl
  | hostRead _ _ _ _ _ => exact keeps _ [] {} (by simp) rfl
  | rejectedWord w e _ _ => exact keeps _ [.reject w e] {} rfl rfl
  | strayByte r _ _ => exact keeps _ [.x2 r true] {} rfl rfl

/-! ## The stages of a push -/

/-- The value a pushing command arms (R294). -/
def pushedValue (c : Cmd) (s : State) : Sample := armValue s c.pushSrc

theorem pushedValue_congr {s t : State} (c : Cmd) (h : t.sample = s.sample) :
    pushedValue c t = pushedValue c s := by
  unfold pushedValue
  cases c.pushSrc with
  | imm v => rfl
  | fromSample => exact h

/-- How far a running command has come with its push, and what its events `es` hold so far. -/
inductive PushStage (c : Cmd) (es : List Event) (s : State) : Prop where
  /-- `SELA` is still to come. -/
  | ahead (front : List MicroOp) (hleft : opsLeft c s = front ++ c.fromSela)
      (hfront : ∀ op ∈ front, offPush op = true) (hno : .sel2 .asserted .seq ∉ es)
      (hes : es.all (fun e => !isPushed e) = true)
  /-- `SEL2` is asserted, and `ARM2` is next. -/
  | selected (hleft : opsLeft c s = .arm2 c.pushSrc :: c.fromPoll) (hes : PushOpen es [])
  /-- The bytes before the armed index are out. -/
  | armed (v : Sample) (hv : v = pushedValue c s) (hleft : opsLeft c s = c.fromPoll) (hx : s.x2Busy = true)
      (hbuf : s.tx2Buf = ⟨sampleByte v 16, sampleByte v 8, sampleByte v 0⟩)
      (hes : PushOpen es ((pushEvents v).take s.x2Idx.val))
  /-- All three bytes are out, and neither agent has released `SEL2`. -/
  | complete (hleft : opsLeft c s = c.fromPoll ∨ opsLeft c s = .seld :: c.afterPush) (hx : s.x2Busy = false)
      (hes : PushOpen es (pushEvents (pushedValue c s)))
  /-- One of them has. -/
  | released (hleft : opsLeft c s <:+ c.fromPoll) (hx : s.x2Busy = false)
      (hes : PushClosed (pushedValue c s) es)

theorem mem_fromPoll {c : Cmd} {op : MicroOp} (h : op ∈ c.fromPoll) :
    op = .poll2 ∨ op = .seld ∨ op = .tele .sampleOut ∨ op = .finish := by
  cases c <;> simp [Cmd.fromPoll, Cmd.afterPush] at h <;> tauto

section

variable {c : Cmd} {es es' : List Event} {s t : State}

theorem opsLeft_congr (c : Cmd) (h : t.upc = s.upc) : opsLeft c t = opsLeft c s := by
  rw [opsLeft, h, opsLeft]

/-- A turn that does not concern the push leaves its stage. -/
theorem PushStage.keeps (stage : PushStage c es s) (same : SamePush s t) (hes' : es'.all isBland = true) :
    PushStage c (es ++ es') t := by
  obtain ⟨hpushed, -, hno', -⟩ := bland_all hes'
  have hops := opsLeft_congr c same.upc
  have hvalue := pushedValue_congr c same.sample
  cases stage with
  | ahead front hleft hfront hno hes =>
    exact .ahead front (hops.trans hleft) hfront (by simp [hno, hno']) (by rw [List.all_append, hes, hpushed]; rfl)
  | selected hleft hes => exact .selected (hops.trans hleft) (hes.bland hes')
  | armed v hv hleft hx hbuf hes =>
    exact .armed v (hv.trans hvalue.symm) (hops.trans hleft) (same.x2Busy.trans hx) (same.tx2Buf.trans hbuf)
      (same.x2Idx ▸ hes.bland hes')
  | complete hleft hx hes =>
    exact .complete (hops ▸ hleft) (same.x2Busy.trans hx) (hvalue ▸ hes.bland hes')
  | released hleft hx hes =>
    exact .released (hops ▸ hleft) (same.x2Busy.trans hx) (hvalue ▸ hes.append hpushed)

/-- The handler's turn releases `SEL2` of a complete push; no completion is pending before. -/
theorem PushStage.handles (h : Inv s) (hc : s.cur = some c) (stage : PushStage c es s) (hp : s.irqPending = true)
    (same : SamePush s t) : PushStage c (es ++ [.sel2 .deasserted .irq]) t := by
  have hops := opsLeft_congr c same.upc
  have hvalue := pushedValue_congr c same.sample
  cases stage with
  | ahead front hleft hfront hno hes =>
    exact .ahead front (hops.trans hleft) hfront (by simp [hno]) (by rw [List.all_append, hes]; rfl)
  | selected hleft hes =>
    have hidle := (h.arm_sel2 _ ((nextMicroOp_some hc).trans (opsLeft_head hleft))).2
    exact nomatch hp.symm.trans hidle
  | armed v hv hleft hx hbuf hes => exact nomatch hp.symm.trans (h.armed_irq hx)
  | complete hleft hx hes =>
    refine .released (hops ▸ ?_) (same.x2Busy.trans hx) (hvalue ▸ hes.release .irq)
    rcases hleft with e | e <;> rw [e]
    exact List.suffix_cons ..
  | released hleft hx hes => exact .released (hops ▸ hleft) (same.x2Busy.trans hx) (hvalue ▸ hes.append rfl)

/-- A transfer is armed only in its stage. -/
theorem PushStage.of_x2Busy (h : Inv s) (hc : s.cur = some c) (stage : PushStage c es s) (hx : s.x2Busy = true) :
    ∃ v, v = pushedValue c s ∧ opsLeft c s = c.fromPoll ∧
      s.tx2Buf = ⟨sampleByte v 16, sampleByte v 8, sampleByte v 0⟩ ∧
      PushOpen es ((pushEvents v).take s.x2Idx.val) := by
  have polls {op : MicroOp} {rest : List MicroOp} (hleft : opsLeft c s = op :: rest) : op = .poll2 :=
    h.eq_poll2 hc (opsLeft_head hleft) hx
  cases stage with
  | ahead front hleft hfront _ _ =>
    obtain _ | ⟨op, front⟩ := front
    · exact nomatch polls hleft
    · obtain rfl := polls hleft
      exact nomatch hfront _ List.mem_cons_self
  | selected hleft _ => exact nomatch polls hleft
  | armed v hv hleft _ hbuf hes => exact ⟨v, hv, hleft, hbuf, hes⟩
  | complete _ hno _ | released _ hno _ => exact nomatch hx.symm.trans hno

/-- A byte clocked before the last is the next of the value's. -/
theorem PushStage.sends {b : Byte} (h : Inv s) (hc : s.cur = some c) (stage : PushStage c es s)
    (hx : s.x2Busy = true) (hb : byteAt s.tx2Buf s.x2Idx.val = some b) :
    PushStage c (es ++ [.x2 b false])
      (State.advance { s with x2Idx := s.x2Idx + 1, trace := s.trace ++ [.x2 b false] }) := by
  obtain ⟨v, hv, hleft, hbuf, hes⟩ := stage.of_x2Busy h hc hx
  have hlt := h.armed_index hx
  have hidx : (s.x2Idx + 1).val = s.x2Idx.val + 1 := by omega
  refine .armed v hv hleft hx hbuf ?_
  rw [State.advance_x2Idx, hidx, take_succ_pushEvents (hbuf ▸ hb)]
  exact hes.append rfl

/-- The last byte clocked is the value's last. -/
theorem PushStage.completes {b : Byte} (h : Inv s) (hc : s.cur = some c) (stage : PushStage c es s)
    (hx : s.x2Busy = true) (hb : byteAt s.tx2Buf s.x2Idx.val = some b) (hi : s.x2Idx = 2) :
    PushStage c (es ++ [.x2 b false, .done2]) (State.advance { s with
      x2Idx := 3, x2Busy := false, irqPending := s.irqPending || s.cirqEn
      trace := s.trace ++ [.x2 b false, .done2] }) := by
  obtain ⟨v, hv, hleft, hbuf, hes⟩ := stage.of_x2Busy h hc hx
  have hlast := take_succ_pushEvents (hbuf ▸ hb)
  rw [hi] at hlast hes
  have hsent : pushEvents (pushedValue c s) = (pushEvents v).take 2 ++ [.x2 b false] := hv ▸ hlast
  refine .complete (.inl hleft) rfl ?_
  exact hsent ▸ hes.append (es' := [.x2 b false, .done2]) rfl

/-- A micro-operation that goes on takes a push through its stages. -/
theorem PushStage.performs {op : MicroOp} (stage : PushStage c es s) (hop : (expand c)[s.upc]? = some op)
    (h : PushOp s op t es') : PushStage c (es ++ es') t := by
  have isHead {o : MicroOp} {rest : List MicroOp} (hleft : opsLeft c s = o :: rest) : op = o :=
    Option.some.inj (hop.symm.trans (opsLeft_head hleft))
  cases stage with
  | ahead front hleft hfront hno hes =>
    obtain _ | ⟨o, front⟩ := front
    · obtain rfl := isHead hleft
      cases h with
      | passes _ hop => simp [offPush] at hop
      | selects => exact .selected (opsLeft_next hleft rfl) (.of_sela hno hes)
    · obtain rfl := isHead hleft
      have hoff := hfront _ List.mem_cons_self
      cases h with
      | passes g _ _ hbland =>
        obtain ⟨hpushed, -, hno', -⟩ := bland_all hbland
        exact .ahead front (opsLeft_next hleft g.upc) (List.forall_mem_of_forall_mem_cons hfront)
          (by simp [hno, hno']) (by rw [List.all_append, hes, hpushed]; rfl)
      | selects | arms | releases => cases hoff
  | selected hleft hes =>
    obtain rfl := isHead hleft
    cases h with
    | passes _ hop => simp [offPush] at hop
    | arms =>
      exact .armed (pushedValue c s) (pushedValue_congr c rfl).symm (opsLeft_next hleft rfl) rfl rfl (hes.bland rfl)
  | armed v hv hleft hx hbuf hes =>
    obtain rfl := isHead hleft
    cases h with
    | passes g => exact nomatch hx.symm.trans (g.polled rfl)
  | complete hleft hx hes =>
    rcases hleft with hleft | hleft <;> obtain rfl := isHead hleft
    · cases h with
      | passes g _ hsample hbland =>
        exact .complete (.inr (opsLeft_next hleft g.upc)) ((g.x2Busy nofun).trans hx)
          (pushedValue_congr c (hsample nofun) ▸ hes.bland hbland)
    · cases h with
      | passes _ hop => simp [offPush] at hop
      | releases =>
        refine .released ?_ hx (pushedValue_congr c rfl ▸ hes.release .seq)
        rw [opsLeft_next hleft rfl]
        exact ⟨[.poll2, .seld], rfl⟩
  | released hleft hx hes =>
    have hmem := mem_fromPoll (hleft.subset (List.mem_of_getElem? (i := 0) (by rwa [opsLeft, List.getElem?_drop])))
    have hrest {u : State} (hu : u.upc = s.upc + 1) : opsLeft c u <:+ c.fromPoll := by
      rw [opsLeft, hu, ← List.tail_drop]
      exact (List.tail_suffix _).trans hleft
    cases h with
    | passes g _ hsample hbland =>
      have harm : ∀ src, op ≠ .arm2 src := by rintro src rfl; simp at hmem
      have hdecode : op ≠ .decode := by rintro rfl; simp at hmem
      obtain ⟨hpushed, -, -, -⟩ := bland_all hbland
      exact .released (hrest g.upc) ((g.x2Busy harm).trans hx)
        (pushedValue_congr c (hsample hdecode) ▸ hes.append hpushed)
    | selects | arms => simp at hmem
    | releases => exact .released (hrest rfl) hx (pushedValue_congr c rfl ▸ hes.append rfl)

/-- Every turn in which the command runs on leaves its push at a stage. -/
theorem PushStage.turn {op : MicroOp} (h : Inv s) (hc : s.cur = some c) (stage : PushStage c es s)
    (hop : (expand c)[s.upc]? = some op) (turn : PushTurn s op t es') : PushStage c (es ++ es') t := by
  cases turn with
  | keeps same hes => exact stage.keeps same hes
  | handles hp same => exact stage.handles h hc hp same
  | sends b hx hb => exact stage.sends h hc hx hb
  | completes b hx hb hi => exact stage.completes h hc hx hb hi
  | performs hperform => exact stage.performs hop hperform

/-- At its `FINISH` a push is closed. -/
theorem PushStage.closed_of_finish (stage : PushStage c es s) (hop : (expand c)[s.upc]? = some .finish) :
    PushClosed (pushedValue c s) es := by
  have isHead {o : MicroOp} {rest : List MicroOp} (hleft : opsLeft c s = o :: rest) : .finish = o :=
    Option.some.inj (hop.symm.trans (opsLeft_head hleft))
  cases stage with
  | ahead front hleft hfront _ _ =>
    obtain _ | ⟨o, front⟩ := front
    · exact nomatch isHead hleft
    · obtain rfl := isHead hleft
      exact nomatch hfront _ List.mem_cons_self
  | selected hleft _ | armed _ _ hleft _ _ _ => exact nomatch isHead hleft
  | complete hleft _ _ => rcases hleft with hleft | hleft <;> exact nomatch isHead hleft
  | released _ _ hes => exact hes

/-! ## The run of a push -/

/-- How far a run has come that began with command `c` before its `SELA`, by its events `es`. -/
inductive PushRun (c : Cmd) (es : List Event) (s : State) : Prop where
  | running (hc : s.cur = some c) (hfinish : .finish ∉ es) (stage : PushStage c es s)
  /-- The command's `FINISH` is the last event. -/
  | finished (pushed : List Event) (hcur : s.cur = none) (hes : es = pushed ++ [.finish])
      (h : PushClosed (pushedValue c s) pushed)
  /-- An abort has ended the command, or other events have followed its `FINISH`. -/
  | ended (h : (∃ e, .abort e ∈ es) ∨ .finish ∈ es.dropLast)

/-- A turn of an idle block has an event, or leaves it idle with its sample. -/
theorem step_of_idle (h : Inv s) (hin : s.input ≠ .blockReset) (hc : s.cur = none) (hstep : step s = .next t) :
    ∃ es, t.trace = s.trace ++ es ∧ (es = [] → t.cur = none ∧ t.sample = s.sample) := by
  obtain ⟨-, -, -, hx⟩ := h.idle hc
  cases StepAnswers.of_step hstep with
  | blockReset hr => exact absurd hr hin
  | microOp _ _ _ _ hsome _ => exact nomatch hc.symm.trans hsome
  | armedByte _ _ _ ht _ _ | lastByte _ _ _ ht _ _ => exact nomatch hx.symm.trans ht
  | handler _ =>
    rcases irqStep_cases s with ⟨-, e⟩ | ⟨-, e⟩ <;> rw [e]
    · exact ⟨[_], rfl, nofun⟩
    · exact ⟨[], by simp, fun _ => ⟨hc, rfl⟩⟩
  | otherWrite off v _ _ _ => unfold registerWrite; split <;> exact ⟨[], by simp, fun _ => ⟨hc, rfl⟩⟩
  | hostRead _ _ _ _ _ | idleTurn _ _ _ => exact ⟨[], by simp, fun _ => ⟨hc, rfl⟩⟩
  | rejectedWord _ _ _ _ | acceptedWord _ _ _ _ _ _ | strayByte _ _ _ => exact ⟨[_], rfl, nofun⟩

theorem mem_dropLast_append {α : Type} {a : α} {l l' : List α} (h : a ∈ l.dropLast) : a ∈ (l ++ l').dropLast := by
  rw [List.dropLast_append]
  split
  · exact h
  · exact List.mem_append_left _ (List.mem_of_mem_dropLast h)

/-- How far a run has come does not depend on the input to come. -/
theorem PushRun.turn (run : PushRun c es s) (i : Input) : PushRun c es (s.turn i) := by
  cases run with
  | running hc hfinish stage =>
    exact .running hc hfinish (List.append_nil es ▸ stage.keeps {} rfl)
  | finished pushed hcur hes h => exact .finished pushed hcur hes (pushedValue_congr c rfl ▸ h)
  | ended h => exact .ended h

/-- Every turn but block reset takes such a run on. -/
theorem PushRun.next (run : PushRun c es s) (h : Inv s) (hin : s.input ≠ .blockReset)
    (hstep : step s = .next t) : ∃ es', t.trace = s.trace ++ es' ∧ PushRun c (es ++ es') t := by
  cases run with
  | running hc hfinish stage =>
    have hop : (expand c)[s.upc]? = some _ := List.getElem?_eq_getElem (h.upc_lt c hc)
    obtain ⟨es', htrace, turn⟩ := runningTurn_of_step h hin hc hop hstep
    refine ⟨es', htrace, ?_⟩
    cases turn with
    | aborts e he => exact .ended (.inl ⟨e, List.mem_append_right _ he⟩)
    | finishes hlast ht hes =>
      subst ht hes
      exact .finished es rfl rfl (pushedValue_congr c rfl ▸ stage.closed_of_finish (hlast ▸ hop))
    | runs turn =>
      obtain ⟨hcur, hfinish'⟩ := turn.runs_on
      exact .running (hcur.trans hc) (by simp [hfinish, hfinish']) (stage.turn h hc hop turn)
  | finished pushed hcur hes hclosed =>
    obtain ⟨es', htrace, hidle⟩ := step_of_idle h hin hcur hstep
    refine ⟨es', htrace, ?_⟩
    by_cases hes' : es' = []
    · obtain ⟨hcur', hsample⟩ := hidle hes'
      exact .finished pushed hcur' (by simp [hes, hes']) (pushedValue_congr c hsample ▸ hclosed)
    · refine .ended (.inr ?_)
      rw [List.dropLast_append_of_ne_nil hes', hes]
      simp
  | ended hended =>
    obtain ⟨es', htrace⟩ := traceOnlyGrows s t hin hstep
    refine ⟨es', htrace, .ended ?_⟩
    exact hended.imp (fun ⟨e, he⟩ => ⟨e, List.mem_append_left _ he⟩) mem_dropLast_append

end

/-- A run from before a command's `SELA`, without block reset. -/
theorem pushRun_of_runOn {f : Nat → Input} {n : Nat} {s t : State} {c : Cmd} (hpush : c.pushes) (h : Inv s)
    (hc : s.cur = some c) (hahead : .sela ∉ doneOps s) (hf : ∀ j, j < n → f j ≠ .blockReset)
    (hrun : runOn f n s = .next t) : Inv t ∧ ∃ es, t.trace = s.trace ++ es ∧ PushRun c es t := by
  induction n generalizing t with
  | zero =>
    cases hrun
    obtain ⟨front, hleft, hfront⟩ := opsLeft_of_sela_notMem hpush hc hahead
    exact ⟨h, [], by simp, .running hc nofun (.ahead front hleft hfront nofun rfl)⟩
  | succ n ih =>
    cases hu : runOn f n s with
    | fault r | refused r => simp [runOn, hu] at hrun
    | next u =>
      rw [runOn_succ hu] at hrun
      obtain ⟨hinv, es, htrace, run⟩ := ih (fun j hj => hf j (by omega)) hu
      have hinv' := hinv.turn (f n)
      obtain ⟨es', htrace', run'⟩ := (run.turn (f n)).next hinv' (hf n (by omega)) hrun
      exact ⟨stepKeepsInvariant _ _ hinv' hrun, es ++ es',
        by rw [htrace', ← List.append_assoc, ← htrace]; rfl, run'⟩

/-- Settles O57: a run that ends with the first `FINISH` of the events, without an abort, ends with that of the
push. -/
theorem pushCarriesThreeBytes : Obligations.PushCarriesThreeBytes := by
  intro f n s t c v es h hc hahead hv hf hrun htrace hfinish habort
  have hpush : c.pushes := hv.imp (fun e => ⟨v, e⟩) And.left
  obtain ⟨-, es', htrace', run⟩ := pushRun_of_runOn hpush h hc hahead hf hrun
  have hes : es' = es ++ [.finish] :=
    List.append_cancel_left (htrace'.symm.trans (htrace.trans (List.append_assoc ..)))
  subst hes
  cases run with
  | running _ hno _ => simp at hno
  | finished pushed _ he hclosed =>
    obtain rfl : es = pushed := List.append_cancel_right he
    have hvalue : pushedValue c t = v := by
      rcases hv with rfl | ⟨⟨ch, rfl⟩, hsample⟩
      · rfl
      · exact hsample
    exact hvalue ▸ hclosed
  | ended hended =>
    rcases hended with ⟨e, he⟩ | he
    · simp [habort] at he
    · simp [hfinish] at he

end Sys2Proof.Machine
end

section
/-! The control commands `NOP`, `WAIT` and `RESET_PULSE`: each step against its listing, and what they leave
unchanged (45_control.md R320 to R328). -/

namespace Sys2Proof.Machine

open Sys2Proof.Statements

/-! ## The listings, step by step -/

theorem perform_rsta (d : Draw) (s : State) : perform .rsta d s = { s with
    rst := .asserted, trace := s.trace ++ [.rst .asserted], upc := s.upc + 1 } := rfl

theorem perform_rstd (d : Draw) (s : State) : perform .rstd d s = { s with
    rst := .deasserted, trace := s.trace ++ [.rst .deasserted], upc := s.upc + 1 } := rfl

/-- Settles O11: the one micro-operation of `NOP` is `FINISH`. -/
theorem nopFinishes : Obligations.NopFinishes := by
  intro s d h hk
  exact exec_at rfl h hk rfl (perform_finish d s)

/-- Settles O12, at each index of the listing. -/
theorem waitDelaysThenFinishes : Obligations.WaitDelaysThenFinishes := by
  intro s d n h hlt
  interval_cases hk : s.upc
  · exact exec_at rfl h hk rfl (perform_delay n.toNat d s)
  · exact exec_at rfl h hk rfl (perform_finish d s)

/-- Settles O13, at each index of the listing. -/
theorem resetPulseSteps : Obligations.ResetPulseSteps := by
  intro s d h hlt
  unfold afterResetPulse
  interval_cases hk : s.upc
  · exact exec_at rfl h hk rfl (by rw [perform_rsta, hk]; rfl)
  · exact exec_at rfl h hk rfl (perform_delay _ d s)
  · exact exec_at rfl h hk rfl (by rw [perform_rstd, hk]; rfl)
  · exact exec_at rfl h hk rfl (perform_delay _ d s)
  · exact exec_at rfl h hk rfl (perform_finish d s)

/-! ## The frame -/

/-- The commands that use neither bus. -/
def Cmd.isControl (c : Cmd) : Prop := c = .nop ∨ (∃ n, c = .wait n) ∨ c = .resetPulse

theorem Cmd.isControl.offPrimary {c : Cmd} (h : c.isControl) : c.offPrimary :=
  h.imp_right (Or.imp_right Or.inl)

/-- A control command holds only delays, edges of `RST` and its `FINISH` (R320, R323, R326). -/
theorem Cmd.isControl.op_cases {c : Cmd} {op : MicroOp} (h : c.isControl) (hop : op ∈ expand c) :
    (∃ n, op = .delay n) ∨ op = .rsta ∨ op = .rstd ∨ op = .finish := by
  rcases h with rfl | ⟨n, rfl⟩ | rfl <;>
    simp only [expand, expandNop, expandWait, expandResetPulse, List.mem_cons, List.not_mem_nil,
      or_false] at hop
  · exact .inr (.inr (.inr hop))
  · exact hop.imp (fun e => ⟨_, e⟩) fun e => .inr (.inr e)
  · rcases hop with e | e | e | e | e
    · exact .inr (.inl e)
    · exact .inl ⟨_, e⟩
    · exact .inr (.inr (.inl e))
    · exact .inl ⟨_, e⟩
    · exact .inr (.inr (.inr e))

/-- A control command keeps the lines of both buses and the secondary transfer, in every state: it has no
abort that could release them. -/
theorem exec_control_buses {i : Instr} {c : Cmd} {s t : State} (hi : commandOf i = some c)
    (hcontrol : c.isControl) (h : exec i s = .next t) : t.cs1 = s.cs1 ∧ sameSecondary s t := by
  rcases exec_command_next hi h with ⟨_, _, _, _, _, rfl⟩ | ⟨d, op, -, hop, rfl⟩
  · exact ⟨rfl, rfl, rfl, rfl⟩
  · rcases hcontrol.op_cases (List.mem_of_getElem? hop) with ⟨n, rfl⟩ | rfl | rfl | rfl <;>
      exact ⟨rfl, rfl, rfl, rfl⟩

/-- A control command keeps every register, the surroundings, both buses and the identity state (R328). -/
theorem exec_control_frame {i : Instr} {c : Cmd} {s t : State} (hi : commandOf i = some c)
    (hcontrol : c.isControl) (h : exec i s = .next t) :
    sameRegisters s t ∧ sameSurroundings s t ∧ t.cs1 = s.cs1 ∧ sameSecondary s t ∧ t.idst = s.idst := by
  have f := exec_commandFrame hi h
  obtain ⟨hcs1, hsecondary⟩ := exec_control_buses hi hcontrol h
  have hregs : sameRegisters s t := by
    rcases hcontrol with rfl | ⟨n, rfl⟩ | rfl <;>
      exact ⟨f.rxdata nofun nofun, f.sample nofun nofun, f.idNibble nofun, f.rxBuf nofun nofun nofun nofun,
        f.tx2Buf nofun nofun⟩
  exact ⟨hregs, f.surroundings, hcs1, hsecondary, f.idst hcontrol.offPrimary⟩

/-- Settles O50: the frame of a control command, and `RST` but by `RESET_PULSE`. -/
theorem controlFrame : Obligations.ControlFrame := by
  intro i s t hi h
  obtain ⟨c, hc, hcontrol, hne⟩ :
      ∃ c, commandOf i = some c ∧ c.isControl ∧ (i ≠ .resetPulse → c ≠ .resetPulse) := by
    rcases hi with rfl | ⟨n, rfl⟩ | rfl
    · exact ⟨.nop, rfl, .inl rfl, nofun⟩
    · exact ⟨.wait n, rfl, .inr (.inl ⟨n, rfl⟩), nofun⟩
    · exact ⟨.resetPulse, rfl, .inr (.inr rfl), fun hne => absurd rfl hne⟩
  obtain ⟨hregs, hsurroundings, hcs1, ⟨hsel2, hidx, hbusy⟩, hidst⟩ := exec_control_frame hc hcontrol h
  exact ⟨hregs, hsurroundings, hcs1, hsel2, hidx, hbusy, hidst,
    fun hi => (exec_commandFrame hc h).rst (hne hi)⟩

end Sys2Proof.Machine
end

section
/-! Rejection, aborts and the completion handler: a word presented to a busy block, the identity-state gate, the
causes of an abort, and the handler's turn (60_exceptions.md R342 to R352). -/

namespace Sys2Proof.Machine

open Sys2Proof.Statements

/-! ## Acceptance and rejection (R342 to R344) -/

/-- A host instruction whose gate says Ok is latched by an idle block. -/
theorem exec_of_idGate_none {s : State} {i : Instr} {c : Cmd} {off : Int} {n : Nat} {w : Word}
    (hi : commandOf i = some c) (hin : s.input = .hostWrite off n w) (hb : s.busy = false)
    (hg : idGate s.idst c = none) : exec i s = .next { s with
      cur := some c, upc := 0, busy := true, err := .errNone, trace := s.trace ++ [.accept w] } := by
  simp [exec_eq_command hi, command_hostWrite hin, acceptCmd, hb, hg, State.emit]

/-- A host instruction whose gate has a code is rejected with it by an idle block. -/
theorem exec_of_idGate_some {s : State} {i : Instr} {c : Cmd} {off : Int} {n : Nat} {w : Word} {e : ErrCode}
    (hi : commandOf i = some c) (hin : s.input = .hostWrite off n w) (hb : s.busy = false)
    (hg : idGate s.idst c = some e) : exec i s = .next (rejected w e s) := by
  simp [exec_eq_command hi, command_hostWrite hin, acceptCmd, hb, hg, rejectWord, rejected, State.emit]

/-- The cells of the gate table that say Ok (R344). -/
theorem idGate_eq_none {idst : IdState} {c : Cmd}
    (h : c = .nop ∨ (idst ≠ .halted ∧ (c = .resetPulse ∨ ∃ k, c = .wait k)) ∨
      (idst = .unchecked ∧ c = .identify) ∨ (idst = .ok ∧ c ≠ .identify)) : idGate idst c = none := by
  rcases h with rfl | ⟨hid, hc⟩ | ⟨rfl, rfl⟩ | ⟨rfl, hc⟩
  · cases idst <;> rfl
  · cases idst with
    | halted => exact absurd rfl hid
    | unchecked | ok => rcases hc with rfl | ⟨k, rfl⟩ <;> rfl
  · rfl
  · cases c with
    | identify => exact absurd rfl hc
    | _ => rfl

/-- HALTED rejects every command but `NOP` (R344). -/
theorem idGate_halted {c : Cmd} (hnop : c ≠ .nop) : idGate .halted c = some .errHalted := by
  cases c with
  | nop => exact absurd rfl hnop
  | _ => rfl

/-- UNCHECKED rejects every command that needs an identified device (R344). -/
theorem idGate_unchecked {c : Cmd} (hnop : c ≠ .nop) (hreset : c ≠ .resetPulse) (hidentify : c ≠ .identify)
    (hwait : ∀ k, c ≠ .wait k) : idGate .unchecked c = some .errNotIdentified := by
  cases c with
  | nop => exact absurd rfl hnop
  | resetPulse => exact absurd rfl hreset
  | identify => exact absurd rfl hidentify
  | wait k => exact absurd rfl (hwait k)
  | _ => rfl

/-- Settles O9: an idle block follows the gate, and the gate is the table. -/
theorem acceptanceFollowsGate : Obligations.AcceptanceFollowsGate := by
  intro s i c off n w hi hin hb
  refine ⟨fun hok => ?_, fun hid hnop => ?_, fun hid hc => ?_, fun hid hnop hreset hidentify hwait => ?_⟩
  · exact exec_of_idGate_none hi hin hb (idGate_eq_none hok)
  · exact exec_of_idGate_some hi hin hb (hid ▸ idGate_halted hnop)
  · exact exec_of_idGate_some hi hin hb (by rw [hid, hc]; rfl)
  · exact exec_of_idGate_some hi hin hb (hid ▸ idGate_unchecked hnop hreset hidentify hwait)

/-- Settles O10: the busy check is the first of a write to `CMD`. -/
theorem busyWriteIsRejected : Obligations.BusyWriteIsRejected := by
  intro s w hin hb
  refine ⟨(rejectWord w .errBusy s).advance, ?_, rfl⟩
  rw [step_cmdWrite hin, if_pos hb]

/-! ## The causes of an abort (R347) -/

/-- What makes a Seq turn at a micro-operation abort with a code. -/
inductive AbortCause (d : Draw) : MicroOp → ErrCode → Prop where
  /-- The timeout of `GATE` (40_bus_transaction.md R179). -/
  | gate (hexpire : d.expire = true) (hset : Config.readyTimeout ≠ none) :
      AbortCause d .gate .errUnresponsive
  /-- The timeout of `POLL2` (44_forwarding.md R296). -/
  | poll2 (hexpire : d.expire = true) (hset : Config.xfer2Timeout ≠ none) :
      AbortCause d .poll2 .errUnresponsive
  /-- The error flag of a granted exchange (40_bus_transaction.md R177). -/
  | xchg (b : Byte) (dst : Dst) (hgrant : d.grant = true) (hxerr : d.xerr = true)
      (hset : Config.checkXferErr = true) : AbortCause d (.xchg b dst) .errXfer

/-- Each cause needs its parameter set, and the defaults set none. -/
theorem AbortCause.not_default {d : Draw} {op : MicroOp} {e : ErrCode} (h : AbortCause d op e) :
    ¬ DefaultParameters := by
  rintro ⟨hready, hxfer2, hcheck, -⟩
  cases h with
  | gate _ hset => exact hset hready
  | poll2 _ hset => exact hset hxfer2
  | xchg _ _ _ _ hset => exact absurd (hset.symm.trans hcheck) nofun

/-- A micro-operation emits `Abort` only for a cause. -/
theorem perform_abortCause (op : MicroOp) (d : Draw) (s : State) :
    ∃ es, (perform op d s).trace = s.trace ++ es ∧ ∀ e, .abort e ∈ es → AbortCause d op e := by
  have silent : ∃ es, s.trace = s.trace ++ es ∧ ∀ e, .abort e ∈ es → AbortCause d op e :=
    ⟨[], (List.append_nil _).symm, nofun⟩
  cases op with
  | xchg b dst =>
    rcases opXchg_cases b dst d s with ⟨-, h⟩ | ⟨hgrant, hxerr, hset, h⟩ | ⟨-, -, h⟩ <;> rw [perform, h]
    · exact silent
    · rw [storeRx_eq, abort_xfer_eq]
      refine ⟨_, List.append_assoc .., fun e he => ?_⟩
      obtain rfl : e = .errXfer := by simpa [abort_mem_abortEvents] using he
      exact .xchg b dst hgrant hxerr hset
    · rw [storeRx_eq]
      exact ⟨[_], rfl, by simp⟩
  | gate =>
    rcases opGate_cases d s with ⟨hexpire, hset, h⟩ | ⟨-, h⟩ | ⟨-, h⟩ <;> rw [perform, h]
    · rw [abort_gate_eq]
      exact ⟨_, rfl, fun e he => abort_mem_abortEvents.1 he ▸ .gate hexpire hset⟩
    · exact silent
    · exact silent
  | poll2 =>
    rcases opPoll2_cases d s with ⟨hexpire, hset, h⟩ | ⟨-, h⟩ | ⟨-, h⟩ <;> rw [perform, h]
    · rw [abort_poll_eq]
      exact ⟨_, rfl, fun e he => abort_mem_abortEvents.1 he ▸ .poll2 hexpire hset⟩
    · exact silent
    · exact silent
  | tele e =>
    rcases opTele_cases e d s with ⟨-, h⟩ | ⟨-, h⟩ <;> rw [perform, h]
    · exact ⟨[_], rfl, by simp⟩
    · exact silent
  | teleBanner =>
    rcases opTele_cases (.banner (decide (s.idNibble = Config.expectedId))) d s with ⟨-, h⟩ | ⟨-, h⟩ <;>
      rw [perform, opTeleBanner, h]
    · exact ⟨[_], rfl, by simp⟩
    · exact silent
  | irqwait => rcases opIrqwait_cases s with ⟨-, h⟩ | ⟨-, h⟩ <;> rw [perform, h] <;> exact silent
  | idset => rcases opIdset_cases s with ⟨-, h⟩ | ⟨-, h⟩ <;> rw [perform, h] <;> exact silent
  | clrrx | setrx | decode | idchk => exact silent
  | csa | csd | delay | rsta | rstd | sela | arm2 | seld | finish => exact ⟨[_], rfl, by simp⟩

/-- A step emits `Abort` only as `Seq`'s, for a cause at its micro-operation: no other agent aborts. -/
theorem step_abortCause {s t : State} (hin : s.input ≠ .blockReset) (hstep : step s = .next t) :
    ∃ es, t.trace = s.trace ++ es ∧ ∀ e, .abort e ∈ es →
      ∃ d op, s.input = .seq d ∧ nextMicroOp s = some op ∧ AbortCause d op e := by
  cases StepAnswers.of_step hstep with
  | blockReset hr => exact absurd hr hin
  | microOp d c op hseq hc hop =>
    obtain ⟨es, htrace, hcause⟩ := perform_abortCause op d s
    exact ⟨es, htrace, fun e he => ⟨d, op, hseq, (nextMicroOp_some hc).trans hop, hcause e he⟩⟩
  | handler _ =>
    rcases irqStep_cases s with ⟨-, e⟩ | ⟨-, e⟩ <;> rw [e]
    · exact ⟨[_], rfl, by simp⟩
    · exact ⟨[], by simp, nofun⟩
  | otherWrite off v _ _ _ => unfold registerWrite; split <;> exact ⟨[], by simp, nofun⟩
  | hostRead _ _ _ _ _ | idleTurn _ _ _ => exact ⟨[], by simp, nofun⟩
  | rejectedWord _ _ _ _ | acceptedWord _ _ _ _ _ _ | strayByte _ _ _ | armedByte _ _ _ _ _ _ =>
    exact ⟨[_], rfl, by simp⟩
  | lastByte _ _ _ _ _ _ => exact ⟨[_, _], rfl, by simp⟩

/-- Settles O27, cause by cause. -/
theorem abortCauses : Obligations.AbortCauses := by
  intro s t hin hstep
  obtain ⟨es, htrace, hcause⟩ := step_abortCause hin hstep
  refine ⟨es, htrace, fun e he => ?_, fun hdefault e he => ?_⟩
  · obtain ⟨d, op, hseq, hnext, cause⟩ := hcause e he
    refine ⟨d, hseq, ?_⟩
    cases cause with
    | gate hexpire hset => exact .inl ⟨hnext, hexpire, hset, rfl⟩
    | poll2 hexpire hset => exact .inr (.inl ⟨hnext, hexpire, hset, rfl⟩)
    | xchg b dst hgrant hxerr hset => exact .inr (.inr ⟨b, dst, hnext, hgrant, hxerr, hset, rfl⟩)
  · obtain ⟨_, _, _, _, cause⟩ := hcause e he
    exact cause.not_default hdefault

/-! ## The completion handler (R352) -/

/-- Settles O28: an `Irq` turn is the handler's step, whether an interrupt is pending or not. -/
theorem handlerDeassertsSelect : Obligations.HandlerDeassertsSelect := by
  intro s hin
  refine ⟨(irqStep s).advance, step_irq hin, ?_⟩
  rcases irqStep_cases s with ⟨hp, h⟩ | ⟨hp, h⟩ <;> rw [h]
  · rw [if_pos hp]
    rfl
  · rw [if_neg (by simp [hp])]
    rfl

end Sys2Proof.Machine
end

section
/-! Block reset, and the boot program's way to its `CONFIGURE` phase (70_reset_and_hazards.md R380, R391,
R392). -/

namespace Sys2Proof.Machine

/-! ## Block reset (R380) -/

/-- Settles O36: what a block reset keeps is the surroundings', which `blockOf` does not look at. -/
theorem blockResetStep : Obligations.BlockResetStep :=
  fun s hin => ⟨s.blockReset.advance, step_blockReset hin, rfl⟩

/-! ## The boot program (R391, R392) -/

theorem bootAfter_eq_configure {p : BootPhase} {r : Word} :
    bootAfter p r = .configure ↔ p = .identify ∧ r.extractLsb' 1 2 = 1 := by
  cases p with
  | identify => simp [bootAfter]
  | resetPulse | configure | acquire | wait | stopped => simp [bootAfter]

theorem bootAfter_identify_ok {r : Word} (hok : r.extractLsb' 1 2 = 1) :
    bootAfter .identify r = .configure :=
  if_pos hok

theorem bootAfter_identify_mismatch {r : Word} (hok : r.extractLsb' 1 2 ≠ 1) :
    bootAfter .identify r = .stopped :=
  if_neg hok

theorem bootNext_pollBefore_phase (p : BootPhase) (r : Word) :
    (bootNext ⟨p, .pollBefore⟩ r).phase = p := by
  simp only [bootNext]
  split <;> rfl

theorem bootNext_writeCmd (p : BootPhase) (r : Word) :
    bootNext ⟨p, .writeCmd⟩ r = ⟨p, .pollAfter⟩ :=
  rfl

theorem bootNext_pollAfter_busy (p : BootPhase) {r : Word} (hbusy : r.getLsbD 0 = true) :
    bootNext ⟨p, .pollAfter⟩ r = ⟨p, .pollAfter⟩ :=
  if_pos hbusy

theorem bootNext_pollAfter_idle (p : BootPhase) {r : Word} (hidle : r.getLsbD 0 = false) :
    bootNext ⟨p, .pollAfter⟩ r = ⟨bootAfter p r, .pollBefore⟩ :=
  if_neg (Bool.eq_false_iff.1 hidle)

theorem bootRequest_stopped (i : IssuePhase) (drdy : Drdy) : bootRequest ⟨.stopped, i⟩ drdy = none :=
  rfl

/-- A command's phase ends only with the poll after it, on a status word with `BUSY` = 0 (R391). -/
theorem bootNext_phase_ne {b : Boot} {r : Word} (hne : (bootNext b r).phase ≠ b.phase) :
    b.issue = .pollAfter ∧ r.getLsbD 0 = false ∧ (bootNext b r).phase = bootAfter b.phase r := by
  obtain ⟨p, i⟩ := b
  cases i with
  | pollBefore => exact absurd (bootNext_pollBefore_phase p r) hne
  | writeCmd => exact absurd (congrArg Boot.phase (bootNext_writeCmd p r)) hne
  | pollAfter =>
    cases hbusy : r.getLsbD 0 with
    | true => exact absurd (congrArg Boot.phase (bootNext_pollAfter_busy p hbusy)) hne
    | false => exact ⟨rfl, rfl, congrArg Boot.phase (bootNext_pollAfter_idle p hbusy)⟩

/-- Settles O55: only the poll after a command changes the phase, and only `IDENTIFY` in OK is followed by
`CONFIGURE`. -/
theorem bootProgramStopsOnMismatch : Obligations.BootProgramStopsOnMismatch := by
  refine ⟨fun b r hconfigure hother => ?_, fun r drdy hidle => ⟨fun hok => ?_, fun hok => ?_⟩⟩
  · obtain ⟨hissue, hidle, hafter⟩ := bootNext_phase_ne (hconfigure ▸ hother.symm)
    obtain ⟨hphase, hok⟩ := bootAfter_eq_configure.1 (hafter.symm.trans hconfigure)
    obtain ⟨p, i⟩ := b
    obtain rfl : p = .identify := hphase
    obtain rfl : i = .pollAfter := hissue
    exact ⟨rfl, hidle, hok⟩
  · rw [bootNext_pollAfter_idle _ hidle, bootAfter_identify_ok hok]
  · rw [bootNext_pollAfter_idle _ hidle, bootAfter_identify_mismatch hok, bootRequest_stopped]

end Sys2Proof.Machine
end
